-- ==== Sys2Proof/Word.lean ====
section
/-! DEFINITION. The two widths of the host port: the 16-bit command or label word (30_encoding.md R90) and
the 8-bit cell that holds one unit, a length, an index or a response (R60, R93). -/

namespace Sys2Proof

/-- A command word or a label word, bits numbered from 0 at the least significant end (R17, R90). -/
abbrev Word := BitVec 16

/-- An 8-bit cell: a unit with zeros above bit BPU-1 (R60), a length, an index or a response (R93). -/
abbrev Byte := BitVec 8

end Sys2Proof
end

