-- ==== Sys2Proof/Syntax.lean ====
section
/-! DEFINITION. The instructions: one constructor for each of the 21 rows of the opcode table
(30_encoding.md R94), host commands and label words alike, with their operands as the names the spec gives
them (R17, R21, R92). -/

namespace Sys2Proof

/-- The three lines of the bus (R21). -/
inductive Line where
  | clock
  | data
  | busy
deriving DecidableEq, Repr

/-- The level of a line (R17): LOW = 0, HIGH = 1. -/
inductive Level where
  | low
  | high
deriving DecidableEq, Repr

/-- The direction of a line (R17, R22): INPUT = 0, OUTPUT = 1. -/
inductive Direction where
  | input
  | output
deriving DecidableEq, Repr

/-- The rows of the opcode table (R94), in the table's order. -/
inductive Instr where
  | nop
  | setdir (line : Line) (mode : Direction)
  | wrline (line : Line) (level : Level)
  | rdline (line : Line)
  | ien
  | idis
  | iclr
  | init
  | snoop (on : Bool)
  | claim
  | txpush (imm : Byte)
  | txenq
  | txclr
  | rxlen
  | rxrd (imm : Byte)
  | rxack
  | rdsr (n : BitVec 4)
  | ext (line : Line) (level : Level)
  | sample
  | asm
  | reset
deriving DecidableEq, Repr

/-- The label words (R95): names for the steps of the agents that are not the host. -/
def Instr.isLabel : Instr → Bool
  | .ext _ _ => true
  | .sample => true
  | .asm => true
  | .reset => true
  | .nop => false
  | .setdir _ _ => false
  | .wrline _ _ => false
  | .rdline _ => false
  | .ien => false
  | .idis => false
  | .iclr => false
  | .init => false
  | .snoop _ => false
  | .claim => false
  | .txpush _ => false
  | .txenq => false
  | .txclr => false
  | .rxlen => false
  | .rxrd _ => false
  | .rxack => false
  | .rdsr _ => false

end Sys2Proof
end

