-- ==== Sys2Proof/Config.lean ====
section
/-! DEFINITION. The parameters of one instance of the block (00_scope.md R10 to R15). They are constants, not
state (10_state.md R20). The two that the spec leaves OPEN, `NODE_ADDR` and `PROTO`, are constants with no
body: nothing can be proved of their values. -/

namespace Sys2Proof

/-- `BIT_ORDER` (R12, R62). -/
inductive BitOrder where
  | msbFirst
  | lsbFirst
deriving DecidableEq, Repr

/-- `CLK_EDGE`, the CLOCK transition that raises the interrupt (R13). -/
inductive ClkEdge where
  | rising
  | falling
deriving DecidableEq, Repr

/-- The five verdicts of `PROTO.judge` (R14). -/
inductive Verdict where
  /-- MORE: more units are required. -/
  | more
  /-- OPEN: a whole frame if BUSY is released now, and more may follow. -/
  | openEnded
  /-- COMPLETE: the frame has met its length or checksum condition. -/
  | complete
  /-- REPLY: a whole command to which this node owes a response. -/
  | reply
  /-- VIOLATION: the units so far cannot be a frame. -/
  | violation
deriving DecidableEq, Repr, Inhabited

/-- The parameters of one instance. -/
structure Params where
  /-- `BPU`, bits per unit (R10). -/
  bpu : Nat
  /-- `NODE_ADDR`, the node's bus address, one unit (R11). -/
  nodeAddr : Byte
  /-- `BIT_ORDER` (R12). -/
  bitOrder : BitOrder
  /-- `CLK_EDGE` (R13). -/
  clkEdge : ClkEdge
  /-- `PROTO.judge`, from the units received so far and the flag "unit 0 equals NODE_ADDR" (R14). -/
  judge : List Byte → Bool → Verdict
  /-- `FRAME_MAX`, capacity of FBUF and DBUF in units (R15). -/
  frameMax : Nat
  /-- `TX_MAX`, capacity of TXBUF in units (R15). -/
  txMax : Nat

/-- The ranges the spec gives the parameters (R10, R11, R15). -/
structure Params.Valid (p : Params) : Prop where
  bpu_pos : 1 ≤ p.bpu
  bpu_le : p.bpu ≤ 8
  nodeAddr_lt : p.nodeAddr.toNat < 2 ^ p.bpu
  frameMax_pos : 1 ≤ p.frameMax
  frameMax_le : p.frameMax ≤ 255
  txMax_pos : 1 ≤ p.txMax
  txMax_le : p.txMax ≤ 255

/-- `NODE_ADDR` is OPEN (R11): an uninterpreted constant, log 4. -/
opaque Config.nodeAddr : Byte

/-- `PROTO.judge` is OPEN (R14): an uninterpreted total function of its two arguments alone, log 5. -/
opaque Config.judge : List Byte → Bool → Verdict

/-- The instance that `exec` and `step` run: the MELBUS values of R10, R12, R13 and R15 (log 6), and the two
open parameters. -/
def Config.params : Params where
  bpu := 8
  nodeAddr := Config.nodeAddr
  bitOrder := .msbFirst
  clkEdge := .rising
  judge := Config.judge
  frameMax := 32
  txMax := 32

end Sys2Proof
end

