-- ==== Sys2Proof/WellFormed.lean ====
section
/-! DEFINITION. Which instructions have an encoding. The reserved line number 3 (R96) is excluded by the type
`Line`; the one check left is that the unit of TXPUSH has no bit above BPU-1 (R92, R96). -/

namespace Sys2Proof

/-- Whether the operands of an instruction fit their fields, for units of `bpu` bits (R92, R96). -/
def Instr.fits (bpu : Nat) : Instr → Bool
  | .txpush imm => decide (imm.toNat < 2 ^ bpu)
  | .nop => true
  | .setdir _ _ => true
  | .wrline _ _ => true
  | .rdline _ => true
  | .ien => true
  | .idis => true
  | .iclr => true
  | .init => true
  | .snoop _ => true
  | .claim => true
  | .txenq => true
  | .txclr => true
  | .rxlen => true
  | .rxrd _ => true
  | .rxack => true
  | .rdsr _ => true
  | .ext _ _ => true
  | .sample => true
  | .asm => true
  | .reset => true

/-- Well-formed for the instance that `exec` runs. -/
def Instr.wellFormed (i : Instr) : Bool :=
  i.fits Config.params.bpu

end Sys2Proof
end

