-- ==== Sys2Proof/Decode.lean ====
section
/-! DEFINITION. The decoder and the encoder of the 16-bit words (30_encoding.md R90 to R97). The decoder is total:
it answers an instruction, or the reason why the word is reserved (R96). -/

namespace Sys2Proof

/-- Why a word is reserved (R96). -/
inductive Reserved where
  /-- A must-be-zero bit of `imm` (or, for op 0, of `a`) is set. -/
  | operandBits
  /-- `a[3:2]` is not 00 in a word of format L or LV. -/
  | lineBits
  /-- The line field is 3. -/
  | lineThree
  /-- The minor opcode `a` is not used. -/
  | minorOpcode
  /-- The unit of TXPUSH has a bit above BPU-1. -/
  | unitTooWide
  /-- The major opcode is not used (0x9 to 0xD). -/
  | majorOpcode
deriving DecidableEq, Repr

/-! ### Fields (R91, R92) -/

/-- `op`, W[15:12]. -/
def opField (w : Word) : Nat := (w.extractLsb' 12 4).toNat

/-- `a`, W[11:8]. -/
def minorField (w : Word) : Nat := (w.extractLsb' 8 4).toNat

/-- `imm`, W[7:0]. -/
def immField (w : Word) : Byte := w.extractLsb' 0 8

/-- `n`, W[11:8]. -/
def numberField (w : Word) : BitVec 4 := w.extractLsb' 8 4

/-- `value`, W[0]. -/
def valueField (w : Word) : Bool := w.getLsbD 0

/-- `line`, W[9:8]: CLOCK = 0, DATA = 1, BUSY = 2, and 3 is reserved (R21, R91). -/
def lineField (w : Word) : Option Line :=
  match (w.extractLsb' 8 2).toNat with
  | 0 => some .clock
  | 1 => some .data
  | 2 => some .busy
  | _ => none

/-- A level value: 0 = LOW, 1 = HIGH (R92). -/
def levelOf (v : Bool) : Level := if v then .high else .low

/-- A mode value: 0 = INPUT, 1 = OUTPUT (R92). -/
def modeOf (v : Bool) : Direction := if v then .output else .input

/-! ### The opcode map (R94) -/

/-- One row of R94 without its mnemonic: a word selects it by mask and match, and the two side conditions. -/
structure Row where
  mask : Word
  pattern : Word
  /-- Formats L and LV: W[9:8] must not be 3. -/
  hasLine : Bool
  /-- TXPUSH: the immediate must be below 2^BPU. -/
  hasUnit : Bool
deriving DecidableEq, Repr

/-- The rows of R94 in the table's order. -/
def opcodeRows : List Row :=
  [ ⟨0xFFFF#16, 0x0000#16, false, false⟩, ⟨0xFCFE#16, 0x1000#16, true, false⟩,
    ⟨0xFCFE#16, 0x2000#16, true, false⟩, ⟨0xFCFF#16, 0x3000#16, true, false⟩,
    ⟨0xFFFF#16, 0x4000#16, false, false⟩, ⟨0xFFFF#16, 0x4100#16, false, false⟩,
    ⟨0xFFFF#16, 0x4200#16, false, false⟩, ⟨0xFFFF#16, 0x5000#16, false, false⟩,
    ⟨0xFFFE#16, 0x5100#16, false, false⟩, ⟨0xFFFF#16, 0x5200#16, false, false⟩ ] ++
  [ ⟨0xFF00#16, 0x6000#16, false, true⟩, ⟨0xFFFF#16, 0x6100#16, false, false⟩,
    ⟨0xFFFF#16, 0x6200#16, false, false⟩, ⟨0xFFFF#16, 0x7000#16, false, false⟩,
    ⟨0xFF00#16, 0x7100#16, false, false⟩, ⟨0xFFFF#16, 0x7200#16, false, false⟩,
    ⟨0xF0FF#16, 0x8000#16, false, false⟩, ⟨0xFCFE#16, 0xE000#16, true, false⟩,
    ⟨0xFFFF#16, 0xF000#16, false, false⟩, ⟨0xFFFF#16, 0xF100#16, false, false⟩,
    ⟨0xFFFF#16, 0xF200#16, false, false⟩ ]

/-- A word selects a row (R94, with R96 for the unit of TXPUSH). -/
def Row.selects (r : Row) (bpu : Nat) (w : Word) : Bool :=
  decide (w &&& r.mask = r.pattern)
    && (!r.hasLine || decide (w.extractLsb' 8 2 ≠ 3#2))
    && (!r.hasUnit || decide ((immField w).toNat < 2 ^ bpu))

/-! ### Decoding (R97) -/

/-- An instruction whose format has a line operand, or the reserved line 3. -/
def withLine (w : Word) (f : Line → Instr) : Except Reserved Instr :=
  match lineField w with
  | some l => .ok (f l)
  | none => .error .lineThree

/-- Why a word that matches no row of R94 by mask is reserved, in the order of R96. -/
def reservedReason (w : Word) : Reserved :=
  if opField w = 0 then .operandBits
  else if opField w ≤ 3 ∨ opField w = 0xE then
    if minorField w < 4 then .operandBits else .lineBits
  else if opField w ≤ 7 ∨ opField w = 0xF then
    if minorField w ≤ 2 then .operandBits else .minorOpcode
  else if opField w = 8 then .operandBits
  else .majorOpcode

/-- The decoder (R94, R97): an instruction, or the reason the word is reserved. -/
def decode (bpu : Nat) (w : Word) : Except Reserved Instr :=
  if w = 0x0000#16 then .ok .nop
  else if w &&& 0xFCFE#16 = 0x1000#16 then withLine w fun l => .setdir l (modeOf (valueField w))
  else if w &&& 0xFCFE#16 = 0x2000#16 then withLine w fun l => .wrline l (levelOf (valueField w))
  else if w &&& 0xFCFF#16 = 0x3000#16 then withLine w fun l => .rdline l
  else if w = 0x4000#16 then .ok .ien
  else if w = 0x4100#16 then .ok .idis
  else if w = 0x4200#16 then .ok .iclr
  else if w = 0x5000#16 then .ok .init
  else if w &&& 0xFFFE#16 = 0x5100#16 then .ok (.snoop (valueField w))
  else if w = 0x5200#16 then .ok .claim
  else if w &&& 0xFF00#16 = 0x6000#16 then
    if (immField w).toNat < 2 ^ bpu then .ok (.txpush (immField w)) else .error .unitTooWide
  else if w = 0x6100#16 then .ok .txenq
  else if w = 0x6200#16 then .ok .txclr
  else if w = 0x7000#16 then .ok .rxlen
  else if w &&& 0xFF00#16 = 0x7100#16 then .ok (.rxrd (immField w))
  else if w = 0x7200#16 then .ok .rxack
  else if w &&& 0xF0FF#16 = 0x8000#16 then .ok (.rdsr (numberField w))
  else if w &&& 0xFCFE#16 = 0xE000#16 then withLine w fun l => .ext l (levelOf (valueField w))
  else if w = 0xF000#16 then .ok .sample
  else if w = 0xF100#16 then .ok .asm
  else if w = 0xF200#16 then .ok .reset
  else .error (reservedReason w)

/-! ### Encoding (R98) -/

/-- The line number in W[9:8] (R21). -/
def lineBits : Line → Word
  | .clock => 0x0000#16
  | .data => 0x0100#16
  | .busy => 0x0200#16

/-- A level in W[0] (R17). -/
def levelBits : Level → Word
  | .low => 0#16
  | .high => 1#16

/-- A mode in W[0] (R17). -/
def modeBits : Direction → Word
  | .input => 0#16
  | .output => 1#16

/-- The word of an instruction, as the column "word" of R98 builds it. -/
def encode : Instr → Word
  | .nop => 0x0000#16
  | .setdir l m => 0x1000#16 + lineBits l + modeBits m
  | .wrline l v => 0x2000#16 + lineBits l + levelBits v
  | .rdline l => 0x3000#16 + lineBits l
  | .ien => 0x4000#16
  | .idis => 0x4100#16
  | .iclr => 0x4200#16
  | .init => 0x5000#16
  | .snoop on => if on then 0x5101#16 else 0x5100#16
  | .claim => 0x5200#16
  | .txpush imm => 0x6000#16 + imm.setWidth 16
  | .txenq => 0x6100#16
  | .txclr => 0x6200#16
  | .rxlen => 0x7000#16
  | .rxrd imm => 0x7100#16 + imm.setWidth 16
  | .rxack => 0x7200#16
  | .rdsr n => 0x8000#16 + (n.setWidth 16 <<< 8)
  | .ext l v => 0xE000#16 + lineBits l + levelBits v
  | .sample => 0xF000#16
  | .asm => 0xF100#16
  | .reset => 0xF200#16

/-! ### The host's view of the decoder -/

/-- The instruction whose bits are `w`, `nbits` of them given and every bit above them 0. One word is the whole
instruction (R90), so a number that needs more than 16 bits is no instruction. -/
def decodeTableWord (nbits w : Nat) : Option Instr :=
  if w % 2 ^ nbits < 2 ^ 16 then
    match decode Config.params.bpu (BitVec.ofNat 16 (w % 2 ^ nbits)) with
    | .ok i => some i
    | .error _ => none
  else none

end Sys2Proof
end

