-- ==== Sys2Proof/Machine/State.lean ====
section
/-! DEFINITION. The state of the block (10_state.md R20 to R34), with the environment's levels (R21), the last
response of the host port (30_encoding.md R90) and the words still to be presented to it; the faults and the
refusals; the state after reset (R59). Everything is plain data. -/

namespace Sys2Proof.Machine

/-- `PHASE` (R27): IDLE = 0, ADDRESS_PHASE = 1, PAYLOAD_PHASE = 2, RESPONDING = 3. -/
inductive Phase where
  | idle
  | addressPhase
  | payloadPhase
  | responding
deriving DecidableEq, Repr

/-- `TDIR`, the Transfer Direction (R28): RECEIVING = 0, TRANSMITTING = 1. -/
inductive Transfer where
  | receiving
  | transmitting
deriving DecidableEq, Repr

/-- One value for each of the three lines (R21). -/
structure Lines (α : Type) where
  clock : α
  data : α
  busy : α
deriving DecidableEq, Repr

/-- A buffer: its units by index, indexes strictly rising, no entry equal to what an unlisted index reads as. -/
abbrev Memory := List Host.Cell

/-- What a cell that no entry lists reads as: the reset contents of the three buffers (R31, R32, R33). -/
abbrev Memory.unlisted : Byte := 0#8

/-- The canonical form of a buffer of `cap` units, from index `low` on: indexes strictly rising and below the
capacity, and no entry equal to `Memory.unlisted`. -/
def Memory.wfFrom (cap : Nat) : Nat → Memory → Bool
  | _, [] => true
  | low, (a, b) :: rest =>
    decide (low ≤ a) && decide (a < cap) && decide (b ≠ Memory.unlisted) && Memory.wfFrom cap (a + 1) rest

/-- The canonical form of a buffer of `cap` units. -/
def Memory.wf (cap : Nat) (m : Memory) : Bool :=
  Memory.wfFrom cap 0 m

/-- The names of the three buffers (R56, R60). -/
inductive Buffer where
  | fbuf
  | dbuf
  | txbuf
deriving DecidableEq, Repr

/-- A word that is presented to the block: on the host command port (R90), or as the label of another agent's
step in a trace (R95). -/
inductive Presented where
  | port (w : Word)
  | label (w : Word)
deriving DecidableEq, Repr

/-- The state. -/
structure State where
  /-- `DIR[L]` (R22). -/
  dir : Lines Direction
  /-- `OUT[L]` (R23). -/
  out : Lines Level
  /-- `IEN` (R24). -/
  ien : Bool
  /-- `IPEND` (R24). -/
  ipend : Bool
  /-- `CLK_PREV` (R25). -/
  clkPrev : Level
  /-- `BITCNT` (R26). -/
  bitcnt : BitVec 3
  /-- `PHASE` (R27). -/
  phase : Phase
  /-- `TDIR` (R28). -/
  tdir : Transfer
  /-- `SHIFT` (R29). -/
  shift : Byte
  /-- `ADDRESSED` (R30). -/
  addressed : Bool
  /-- `MASTER` (R30). -/
  master : Bool
  /-- `SNOOP` (R30). -/
  snoop : Bool
  /-- `BUSY_LAST` (R30). -/
  busyLast : Level
  /-- `FBUF` (R31). -/
  fbuf : Memory
  /-- `FLEN` (R31). -/
  flen : Byte
  /-- `FPROC` (R31). -/
  fproc : Byte
  /-- `FOVF` (R31). -/
  fovf : Bool
  /-- `DBUF` (R32). -/
  dbuf : Memory
  /-- `DLEN` (R32). -/
  dlen : Byte
  /-- `DOBS` (R32). -/
  dobs : Bool
  /-- `FRDY` (R32). -/
  frdy : Bool
  /-- `TXBUF` (R33). -/
  txbuf : Memory
  /-- `TXLEN` (R33). -/
  txlen : Byte
  /-- `TXQ` (R33). -/
  txq : Bool
  /-- `TXIDX` (R33). -/
  txidx : Byte
  /-- `TXBYTE` (R33). -/
  txbyte : Byte
  /-- `TXVALID` (R33). -/
  txvalid : Bool
  /-- `TXDONE` (R33). -/
  txdone : Bool
  /-- `ELOST` of DIAG (R34). -/
  elost : Bool
  /-- `FDISC` of DIAG (R34). -/
  fdisc : Bool
  /-- `FDROP` of DIAG (R34). -/
  fdrop : Bool
  /-- `NOREPLY` of DIAG (R34). -/
  noreply : Bool
  /-- `EXT[L]`, what the rest of the bus puts on the lines (R21): the environment's, kept beside the block's. -/
  extLevel : Lines Level
  /-- `RSP`, the response of the last host step (R90, R93; log 3). -/
  rsp : Byte
  /-- The words still to be presented, the next one first. The MODEL's own field (log 1): the schedule, which
  20_memory.md R71 leaves free. -/
  pending : List Presented
deriving DecidableEq, Repr

/-- What can stop a step with a fault. -/
inductive Fault where
  /-- Raised by `write(line, level)` on a line whose direction is INPUT (R124, R262): by WRLINE, and by SAMPLE
  and ASM in states that only a host that broke R127 can make. Safe: the source gives the case no effect. -/
  | callerMisuse
  /-- Raised by MemRead and MemWrite at an index outside the buffer's capacity (R18, R60; log 10). No reachable
  state does it. Safe. -/
  | bufferBounds
deriving DecidableEq, Repr

/-- What can make a step be refused. -/
inductive Refusal where
  /-- Raised by an arm of `exec` whose instruction has no meaning yet. Safe. No arm does. -/
  | notModelled (mnemonic : String)
  /-- Raised by SAMPLE where IEN = 0 or IPEND = 0: the step is not enabled, and a trace with it is not a run
  (R95, R161; log 7). Safe. -/
  | sampleNotEnabled
  /-- Raised by `step` where the next entry of `pending` names a label and its word is no label word (R95;
  log 9). Safe. -/
  | notALabel
deriving DecidableEq, Repr

/-- The state after reset (R59, R290), with the environment's lines high (log 2), no response yet (log 3) and
nothing presented (log 1). CLK_PREV is the level of the CLOCK wire, which is HIGH then (R25). -/
def State.reset : State where
  dir := ⟨.input, .input, .input⟩
  out := ⟨.high, .high, .high⟩
  ien := false
  ipend := false
  clkPrev := .high
  bitcnt := 0#3
  phase := .idle
  tdir := .receiving
  shift := 0#8
  addressed := false
  master := false
  snoop := false
  busyLast := .low
  fbuf := []
  flen := 0#8
  fproc := 0#8
  fovf := false
  dbuf := []
  dlen := 0#8
  dobs := false
  frdy := false
  txbuf := []
  txlen := 0#8
  txq := false
  txidx := 0#8
  txbyte := 0#8
  txvalid := false
  txdone := false
  elost := false
  fdisc := false
  fdrop := false
  noreply := false
  extLevel := ⟨.high, .high, .high⟩
  rsp := 0#8
  pending := []

end Sys2Proof.Machine
end

