-- ==== Sys2Proof/Machine/Operands.lean ====
section
/-! DEFINITION. The operand forms (30_encoding.md R91, R92): a line picks one of three values, a symbolic value
has a one-bit or two-bit code (00_scope.md R17, 10_state.md R27, R28), and results are extended with zeros to
the 8 bits of RSP (R93). -/

namespace Sys2Proof.Machine

/-- The value of one line. -/
def Lines.get {α : Type} (x : Lines α) : Line → α
  | .clock => x.clock
  | .data => x.data
  | .busy => x.busy

/-- The three values with that of one line replaced. -/
def Lines.set {α : Type} (x : Lines α) (l : Line) (v : α) : Lines α :=
  match l with
  | .clock => ⟨v, x.data, x.busy⟩
  | .data => ⟨x.clock, v, x.busy⟩
  | .busy => ⟨x.clock, x.data, v⟩

/-- HIGH = 1, LOW = 0 (R17). -/
def levelBit : Level → Bool
  | .low => false
  | .high => true

/-- OUTPUT = 1, INPUT = 0 (R17). -/
def directionBit : Direction → Bool
  | .input => false
  | .output => true

/-- TRANSMITTING = 1, RECEIVING = 0 (R28). -/
def transferBit : Transfer → Bool
  | .receiving => false
  | .transmitting => true

/-- The code of a phase (R27). -/
def phaseCode : Phase → BitVec 2
  | .idle => 0#2
  | .addressPhase => 1#2
  | .payloadPhase => 2#2
  | .responding => 3#2

/-- `zext_8` of one bit (R93). -/
def zextBit (b : Bool) : Byte := if b then 1#8 else 0#8

/-- The response 0x01 of a command that took effect (R93). -/
def accepted : Byte := 1#8

/-- The response 0x00 of a refused command, and of every command that returns no data (R93). -/
def nothing : Byte := 0#8

/-- The contents of one buffer. -/
def State.buf (s : State) : Buffer → Memory
  | .fbuf => s.fbuf
  | .dbuf => s.dbuf
  | .txbuf => s.txbuf

/-- The state with the contents of one buffer replaced. -/
def State.setBuf (s : State) (b : Buffer) (m : Memory) : State :=
  match b with
  | .fbuf => { s with fbuf := m }
  | .dbuf => { s with dbuf := m }
  | .txbuf => { s with txbuf := m }

/-- The capacity of a buffer in units (R56). -/
def capacity (p : Params) : Buffer → Nat
  | .fbuf => p.frameMax
  | .dbuf => p.frameMax
  | .txbuf => p.txMax

end Sys2Proof.Machine
end

