-- ==== Sys2Proof/Machine/Flags.lean ====
section
/-! DEFINITION. What is computed from flags: the active edge of the edge detector (41_interrupt_controller.md
R141), the arithmetic of the counters and of the shifter (46_arithmetic_control_access.md R250), and the sixteen
status registers (10_state.md R35 to R51). -/

namespace Sys2Proof.Machine

/-! ### The active edge -/

/-- Whether the change of the CLOCK wire from `prev` to `now` is the active edge (R13, R141). -/
def activeEdge (e : ClkEdge) (prev now : Level) : Bool :=
  match e with
  | .rising => prev == .low && now == .high
  | .falling => prev == .high && now == .low

/-! ### The shifter and the counters -/

/-- SHIFT after one received bit (R162): unsigned, the bit that leaves the unit is dropped. -/
def shiftIn (p : Params) (old : Byte) (bit : Bool) : Byte :=
  match p.bitOrder with
  | .msbFirst => BitVec.ofNat 8 ((2 * old.toNat + bit.toNat) % 2 ^ p.bpu)
  | .lsbFirst => (old >>> 1) ||| BitVec.ofNat 8 (bit.toNat * 2 ^ (p.bpu - 1))

/-- Which bit of the unit the active edge number `j` of the unit carries, `j` counted from 0 (R62; log 15). -/
def wireIndex (p : Params) (j : Nat) : Nat :=
  match p.bitOrder with
  | .msbFirst => p.bpu - 1 - j
  | .lsbFirst => j

/-- The bit of a unit on the wire at the active edge number `j` of the unit (R62, R165). -/
def wireBit (p : Params) (unit : Byte) (j : Nat) : Bool :=
  unit.getLsbD (wireIndex p j)

/-- Whether the bit just taken completes a unit: `BITCNT + 1 = BPU`, computed without wrapping (R163, R250). -/
def completesUnit (p : Params) (s : State) : Bool :=
  s.bitcnt.toNat + 1 == p.bpu

/-- BITCNT after one more bit (R163): the value BPU is never stored. -/
def nextBitcnt (p : Params) (s : State) : BitVec 3 :=
  if s.bitcnt.toNat + 1 = p.bpu then 0#3 else BitVec.ofNat 3 (s.bitcnt.toNat + 1)

/-! ### The status registers -/

/-- Eight bits as a byte, the most significant first (R17). -/
def byteOf (b7 b6 b5 b4 b3 b2 b1 b0 : Bool) : Byte :=
  BitVec.ofBool b7 ++ BitVec.ofBool b6 ++ BitVec.ofBool b5 ++ BitVec.ofBool b4 ++
    BitVec.ofBool b3 ++ BitVec.ofBool b2 ++ BitVec.ofBool b1 ++ BitVec.ofBool b0

/-- SR0 STATUS (R36). -/
def statusSR (s : State) : Byte :=
  byteOf s.snoop s.txq s.frdy s.master s.addressed (transferBit s.tdir)
    ((phaseCode s.phase).getLsbD 1) ((phaseCode s.phase).getLsbD 0)

/-- SR1 FLAGS (R37). -/
def flagsSR (s : State) : Byte :=
  byteOf s.dobs (levelBit s.clkPrev) (levelBit s.busyLast) s.txvalid s.txdone s.fovf s.ipend s.ien

/-- SR2 LINES (R38). -/
def linesSR (s : State) : Byte :=
  byteOf false (levelBit s.out.busy) (levelBit s.out.data) (levelBit s.out.clock)
    false (directionBit s.dir.busy) (directionBit s.dir.data) (directionBit s.dir.clock)

/-- SR11 DIAG (R47). -/
def diagSR (s : State) : Byte :=
  byteOf false false false false s.noreply s.fdrop s.fdisc s.elost

/-- SR13 CONFIG (R49). -/
def configSR (p : Params) : Byte :=
  byteOf false false
    (match p.clkEdge with | .rising => false | .falling => true)
    (match p.bitOrder with | .msbFirst => false | .lsbFirst => true)
    (p.bpu.testBit 3) (p.bpu.testBit 2) (p.bpu.testBit 1) (p.bpu.testBit 0)

/-- Status register SRn (R36 to R51). -/
def statusRegister (p : Params) (s : State) (n : BitVec 4) : Byte :=
  match n.toNat with
  | 0 => statusSR s
  | 1 => flagsSR s
  | 2 => linesSR s
  | 3 => s.bitcnt.setWidth 8
  | 4 => s.shift
  | 5 => s.flen
  | 6 => s.fproc
  | 7 => s.dlen
  | 8 => s.txlen
  | 9 => s.txidx
  | 10 => s.txbyte
  | 11 => diagSR s
  | 12 => p.nodeAddr
  | 13 => configSR p
  | 14 => BitVec.ofNat 8 p.frameMax
  | _ => BitVec.ofNat 8 p.txMax

end Sys2Proof.Machine
end

