-- ==== Sys2Proof/Machine/Ops.lean ====
section
/-! DEFINITION. The shared operations: the buffers (20_memory.md R60), the wire and the Line Driver
(40_line_driver.md R120 to R125, R128), the Interrupt Controller (41_interrupt_controller.md R141 to R144), taking
the one interrupt (60_exceptions.md R267), reset (70_reset_and_hazards.md R290), and what a presented word stands
for (30_encoding.md R95, R96). An operation that can fault answers in `Except Fault`; a fault leaves no successor
state (R18). -/

namespace Sys2Proof.Machine

/-- The outcome of an instruction whose operations answer in `Except Fault`. -/
def finish (r : Except Fault State) : Host.Outcome State Fault Refusal :=
  match r with
  | .ok s => .next s
  | .error f => .fault f

/-- `RSP <- r`, the response of a host step (R90, R93). -/
def State.respond (s : State) (r : Byte) : State := { s with rsp := r }

/-! ### The buffers -/

/-- The unit at one index of a buffer's contents. -/
def Memory.read : Memory → Nat → Byte
  | [], _ => Memory.unlisted
  | (a, b) :: rest, i => if i = a then b else Memory.read rest i

/-- A buffer's contents with the unit at one index replaced; the canonical form is kept. -/
def Memory.write : Memory → Nat → Byte → Memory
  | [], i, v => if v = Memory.unlisted then [] else [(i, v)]
  | (a, b) :: rest, i, v =>
    if i < a then
      if v = Memory.unlisted then (a, b) :: rest else (i, v) :: (a, b) :: rest
    else if i = a then
      if v = Memory.unlisted then rest else (a, v) :: rest
    else (a, b) :: Memory.write rest i v

/-- `MemRead(buf, i)` (R18, R60). -/
def memRead (p : Params) (b : Buffer) (i : Nat) (s : State) : Except Fault Byte :=
  if i < capacity p b then .ok ((s.buf b).read i) else .error .bufferBounds

/-- `MemWrite(buf, i, v)` (R18, R60). -/
def memWrite (p : Params) (b : Buffer) (i : Nat) (v : Byte) (s : State) : Except Fault State :=
  if i < capacity p b then .ok (s.setBuf b ((s.buf b).write i v)) else .error .bufferBounds

/-- The first `n` units of a buffer, in index order. -/
def memPrefix (p : Params) (b : Buffer) (n : Nat) (s : State) : Except Fault (List Byte) :=
  if n ≤ capacity p b then .ok ((List.range n).map (s.buf b).read) else .error .bufferBounds

/-! ### The wire -/

/-- `pull(L)`: this node pulls the line low (R120). -/
def pull (s : State) (l : Line) : Bool :=
  s.dir.get l == .output && s.out.get l == .low

/-- `wire(L)`: the level on the shared wire (R121). -/
def wire (s : State) (l : Line) : Level :=
  if s.extLevel.get l = .low ∨ pull s l = true then .low else .high

/-! ### The Interrupt Controller -/

/-- `edge_detect()` (R141, R268). -/
def edgeDetect (p : Params) (s : State) : State :=
  let c := wire s .clock
  if activeEdge p.clkEdge s.clkPrev c then
    if s.ipend then { s with elost := s.elost || s.ien, clkPrev := c }
    else { s with ipend := true, clkPrev := c }
  else { s with clkPrev := c }

/-- `enable()` (R142). -/
def enable (s : State) : State := { s with ien := true }

/-- `disable()` (R143). -/
def disable (s : State) : State := { s with ien := false }

/-- `clearPending()` (R144). -/
def clearPending (s : State) : State := { s with ipend := false }

/-- The `SAMPLE` step is enabled (R161, R265). -/
def interruptEnabled (s : State) : Bool := s.ien && s.ipend

/-- Taking the interrupt (R161, R267): IPEND is cleared on entry. Nothing is saved, IEN stays, and there is
nothing to restore at the return (R269). -/
def takeInterrupt (s : State) : State := { s with ipend := false }

/-! ### The Line Driver -/

/-- `setDirection(line, mode)` (R123). -/
def setDirection (p : Params) (l : Line) (m : Direction) (s : State) : State :=
  edgeDetect p { s with dir := s.dir.set l m }

/-- `write(line, level)` (R124): a line whose direction is INPUT faults (log 8). -/
def writeLine (p : Params) (l : Line) (v : Level) (s : State) : Except Fault State :=
  match s.dir.get l with
  | .input => .error .callerMisuse
  | .output => .ok (edgeDetect p { s with out := s.out.set l v })

/-- `read(line)` (R125): of an OUTPUT line, the level this node drives last (90_conflicts.md C1, log 11). -/
def readLine (s : State) (l : Line) : Level :=
  match s.dir.get l with
  | .input => wire s l
  | .output => s.out.get l

/-- The environment's step `EXT[line] <- level` (R128). -/
def externalChange (p : Params) (l : Line) (v : Level) (s : State) : State :=
  edgeDetect p { s with extLevel := s.extLevel.set l v }

/-! ### Reset -/

/-- Every field of the block at its reset value (R59, R290); the environment's levels, the last response and the
schedule are not the block's and stay. CLK_PREV copies the CLOCK wire after the lines are released. -/
def resetBlock (s : State) : State :=
  let released := { State.reset with extLevel := s.extLevel, rsp := s.rsp, pending := s.pending }
  { released with clkPrev := wire released .clock }

/-! ### What a presented word stands for -/

/-- What comes of the next presented word. -/
inductive Fetched where
  /-- A step of the block. -/
  | run (i : Instr)
  /-- A reserved word on the host port (R96). -/
  | ignored
  /-- A label entry whose word is no label word (R95). -/
  | notALabel
deriving DecidableEq, Repr

/-- What a presented word stands for: on the host port every word that is no host command is reserved, the label
words too (R95, R96); as a label only the label words stand for a step (R95). -/
def fetch (p : Params) : Presented → Fetched
  | .port w =>
    match decode p.bpu w with
    | .ok i => if i.isLabel then .ignored else .run i
    | .error _ => .ignored
  | .label w =>
    match decode p.bpu w with
    | .ok i => if i.isLabel then .run i else .notALabel
    | .error _ => .notALabel

/-- A reserved word on the host port changes no state and returns 0x00 (R96). -/
def ignoreReserved (s : State) : State := s.respond nothing

/-- Where a word of a trace is presented (R95): major opcodes 0xE and 0xF are labels, all others host words. -/
def presentWord (w : Word) : Presented :=
  if 14 ≤ opField w then .label w else .port w

/-- A trace as the words to present, refused if it holds a reserved word (R96; 93_implementation_defined.md
item 4; log 9). -/
def presentTrace (p : Params) : List Word → Option (List Presented)
  | [] => some []
  | w :: rest =>
    match decode p.bpu w, presentTrace p rest with
    | .ok _, some es => some (presentWord w :: es)
    | _, _ => none

end Sys2Proof.Machine
end

