-- ==== Sys2Proof/Machine/FrameAssembler.lean ====
section
/-! DEFINITION. The Frame Assembler / Bus Arbiter (43_frame_assembler.md): the step ASM and its procedures, in the
order in which they call one another. -/

namespace Sys2Proof.Machine

/-- `to_idle()` (R192). -/
def toIdle (s : State) : State :=
  disable { s with
    phase := .idle, tdir := .receiving, bitcnt := 0#3, shift := 0#8,
    flen := 0#8, fproc := 0#8, fovf := false, addressed := false }

/-- `start_frame()` (R182), with the re-arming of R149. -/
def startFrame (s : State) : State :=
  clearPending (enable { s with
    flen := 0#8, fproc := 0#8, fovf := false, addressed := false,
    bitcnt := 0#3, shift := 0#8, tdir := .receiving, phase := .addressPhase })

/-- `idle_case()` (R181). -/
def idleCase (s : State) : State :=
  match readLine s .busy, s.busyLast with
  | .high, _ => { s with busyLast := .high }
  | .low, .high => startFrame { s with busyLast := .low }
  | .low, .low => s

/-- `discard()` (R191). -/
def discard (s : State) : State :=
  toIdle { s with fdisc := true }

/-- The copy loop of `deliver()` (R190): DBUF[i] <- FBUF[i] for i below `n`, in index order. -/
def copyUnits (p : Params) : Nat → State → Except Fault State
  | 0, s => .ok s
  | n + 1, s => do
    let t ← copyUnits p n s
    let u ← memRead p .fbuf n t
    memWrite p .dbuf n u t

/-- `deliver()` (R190). -/
def deliver (p : Params) (s : State) : Except Fault State :=
  if s.frdy then .ok { s with fdrop := true }
  else do
    let t ← copyUnits p s.fproc.toNat s
    return { t with dlen := s.fproc, dobs := !s.addressed, frdy := true }

/-- `judge()` (R186): PROTO's verdict on the first FPROC units; REPLY for a frame of another node is OPEN. -/
def judge (p : Params) (s : State) : Except Fault Verdict := do
  let units ← memPrefix p .fbuf s.fproc.toNat s
  match p.judge units s.addressed with
  | .reply => if s.addressed then return .reply else return .openEnded
  | v => return v

/-- `begin_response()` (R194, R222). -/
def beginResponse (p : Params) (s : State) : Except Fault State := do
  let s ← writeLine p .busy .low (setDirection p .busy .output s)
  let u ← memRead p .txbuf 0 s
  let s := { s with
    txidx := 0#8, txbyte := u, txvalid := true, txdone := false,
    bitcnt := 0#3, shift := 0#8, flen := s.fproc, tdir := .transmitting }
  let s := setDirection p .data .output s
  return { s with phase := .responding }

/-- `end_transmit()` (R197, R223). -/
def endTransmit (p : Params) (s : State) : Except Fault State := do
  let s ← writeLine p .data .high s
  let s := setDirection p .data .input s
  let s := { s with tdir := .receiving }
  let s ← writeLine p .busy .high s
  let s := setDirection p .busy .input s
  return toIdle { s with
    txq := false, txlen := 0#8, txidx := 0#8, txbyte := 0#8, txvalid := false, txdone := false,
    master := false, busyLast := .low }

/-- `reply()` (R193). -/
def reply (p : Params) (s : State) : Except Fault State := do
  let s ← deliver p s
  if s.txq then beginResponse p s else return toIdle { s with noreply := true }

/-- `judge_and_act()` (R186 to R189, R193). -/
def judgeAndAct (p : Params) (s : State) : Except Fault State := do
  match ← judge p s with
  | .more => return s
  | .openEnded => return s
  | .complete => return toIdle (← deliver p s)
  | .violation => return discard s
  | .reply => reply p s

/-- `process_unit()` (R185; the compare of the address unit: log 16). -/
def processUnit (p : Params) (s : State) : Except Fault State :=
  if s.phase = .addressPhase then do
    let u ← memRead p .fbuf 0 s
    let s := { s with addressed := u == p.nodeAddr }
    if s.addressed = false ∧ s.snoop = false then return toIdle s
    else judgeAndAct p { s with phase := .payloadPhase, fproc := s.fproc + 1#8 }
  else judgeAndAct p { s with fproc := s.fproc + 1#8 }

/-- The frame in progress is still being received. -/
def receivingPhase (s : State) : Bool :=
  s.phase == .addressPhase || s.phase == .payloadPhase

/-- The loop of `receive_case()` (R184): every unit that the sampler has appended, oldest first. Each pass raises
FPROC or leaves the two phases, and FLEN does not grow, so `fuel` = FLEN - FPROC passes are enough. -/
def processUnits (p : Params) : Nat → State → Except Fault State
  | 0, s => .ok s
  | fuel + 1, s =>
    if s.fproc.toNat < s.flen.toNat ∧ receivingPhase s then do
      let t ← processUnit p s
      processUnits p fuel t
    else .ok s

/-- `frame_end_check()` (R195). -/
def frameEndCheck (p : Params) (s : State) : Except Fault State :=
  if s.fovf then .ok (discard s)
  else match readLine s .busy with
    | .low => .ok s
    | .high =>
      let s := { s with busyLast := .high }
      if s.fproc = 0#8 then
        if s.bitcnt = 0#3 then .ok (toIdle s) else .ok (discard s)
      else if s.bitcnt = 0#3 then do
        match ← judge p s with
        | .openEnded => return toIdle (← deliver p s)
        | _ => return discard s
      else .ok (discard s)

/-- `receive_case()` (R184). -/
def receiveCase (p : Params) (s : State) : Except Fault State := do
  let t ← processUnits p (s.flen.toNat - s.fproc.toNat) s
  if receivingPhase t then frameEndCheck p t else return t

/-- `responding_case()` (R196). -/
def respondingCase (p : Params) (s : State) : Except Fault State :=
  if s.txdone then endTransmit p s else .ok s

/-- `master_case()` (R183). -/
def masterCase (p : Params) (s : State) : Except Fault State :=
  if s.txdone then endTransmit p s
  else if s.phase = .addressPhase ∧ 1 ≤ s.txidx.toNat then .ok { s with phase := .payloadPhase }
  else .ok s

/-- One pass (R180): the four cases, tested in this order. -/
def asmBody (p : Params) (s : State) : Except Fault State :=
  if s.phase = .idle then .ok (idleCase s)
  else if s.master then masterCase p s
  else if s.phase = .responding then respondingCase p s
  else receiveCase p s

/-- ASM (R180). -/
def asmAt (p : Params) (s : State) : Host.Outcome State Fault Refusal :=
  finish (asmBody p s)

/-- ASM of the instance of Config (R180). -/
def execAsm (s : State) : Host.Outcome State Fault Refusal :=
  asmAt Config.params s

end Sys2Proof.Machine
end

