-- ==== Sys2Proof/Machine/HostInterface.lean ====
section
/-! DEFINITION. The host interface (45_host_interface.md): NOP, INIT, SNOOP, CLAIM, the response queue TXPUSH,
TXENQ, TXCLR, the delivered frame RXLEN, RXRD, RXACK, and the status registers RDSR. -/

namespace Sys2Proof.Machine

/-- NOP (R230). -/
def nopAt (_p : Params) (s : State) : Host.Outcome State Fault Refusal :=
  .next (s.respond nothing)

/-- INIT (R234): the state that RESET leaves, and the response 0x00. No `edge_detect()` runs. -/
def initAt (_p : Params) (s : State) : Host.Outcome State Fault Refusal :=
  .next ((resetBlock s).respond nothing)

/-- SNOOP v (R235). -/
def snoopAt (_p : Params) (on : Bool) (s : State) : Host.Outcome State Fault Refusal :=
  .next ({ s with snoop := on }.respond nothing)

/-- The test of CLAIM (R236): the engine is IDLE, the bus is idle as this node sees it, a frame is enqueued. -/
def claimAccepted (s : State) : Bool :=
  s.phase == .idle && s.dir.busy == .input && readLine s .busy == .high && s.txq

/-- The effect of an accepted CLAIM (R236, R222), without the response. -/
def claimBus (p : Params) (s : State) : Except Fault State := do
  let s ← writeLine p .busy .low (setDirection p .busy .output s)
  let s := { s with
    master := true, busyLast := .low, flen := 0#8, fproc := 0#8, fovf := false, addressed := false,
    bitcnt := 0#3, shift := 0#8 }
  let u ← memRead p .txbuf 0 s
  let s := { s with
    txidx := 0#8, txbyte := u, txvalid := true, txdone := false, tdir := .transmitting }
  let s := setDirection p .data .output s
  return clearPending (enable { s with phase := .addressPhase })

/-- CLAIM (R236). -/
def claimAt (p : Params) (s : State) : Host.Outcome State Fault Refusal :=
  if claimAccepted s then
    match claimBus p s with
    | .ok t => .next (t.respond accepted)
    | .error f => .fault f
  else .next (s.respond nothing)

/-- TXPUSH imm (R237). -/
def txpushAt (p : Params) (imm : Byte) (s : State) : Host.Outcome State Fault Refusal :=
  if s.txq = false ∧ s.txlen.toNat < p.txMax then
    match memWrite p .txbuf s.txlen.toNat imm s with
    | .ok t => .next ({ t with txlen := s.txlen + 1#8 }.respond accepted)
    | .error f => .fault f
  else .next (s.respond nothing)

/-- TXENQ (R238). -/
def txenqAt (_p : Params) (s : State) : Host.Outcome State Fault Refusal :=
  if s.txq = false ∧ 1 ≤ s.txlen.toNat then .next ({ s with txq := true }.respond accepted)
  else .next (s.respond nothing)

/-- TXCLR (R239). -/
def txclrAt (_p : Params) (s : State) : Host.Outcome State Fault Refusal :=
  match s.tdir with
  | .receiving =>
    .next ({ s with
      txq := false, txlen := 0#8, txidx := 0#8, txbyte := 0#8, txvalid := false, txdone := false }.respond accepted)
  | .transmitting => .next (s.respond nothing)

/-- RXLEN (R231). -/
def rxlenAt (_p : Params) (s : State) : Host.Outcome State Fault Refusal :=
  .next (s.respond (if s.frdy then s.dlen else nothing))

/-- RXRD imm (R240). -/
def rxrdAt (p : Params) (imm : Byte) (s : State) : Host.Outcome State Fault Refusal :=
  if s.frdy = true ∧ imm.toNat < s.dlen.toNat then
    match memRead p .dbuf imm.toNat s with
    | .ok u => .next (s.respond u)
    | .error f => .fault f
  else .next (s.respond nothing)

/-- RXACK (R241). -/
def rxackAt (_p : Params) (s : State) : Host.Outcome State Fault Refusal :=
  .next ({ s with frdy := false, dlen := 0#8, dobs := false }.respond (zextBit s.frdy))

/-- RDSR n (R242). -/
def rdsrAt (p : Params) (n : BitVec 4) (s : State) : Host.Outcome State Fault Refusal :=
  .next (s.respond (statusRegister p s n))

/-- NOP of the instance of Config (R230). -/
def execNop (s : State) : Host.Outcome State Fault Refusal :=
  nopAt Config.params s

/-- INIT of the instance of Config (R234). -/
def execInit (s : State) : Host.Outcome State Fault Refusal :=
  initAt Config.params s

/-- SNOOP of the instance of Config (R235). -/
def execSnoop (on : Bool) (s : State) : Host.Outcome State Fault Refusal :=
  snoopAt Config.params on s

/-- CLAIM of the instance of Config (R236). -/
def execClaim (s : State) : Host.Outcome State Fault Refusal :=
  claimAt Config.params s

/-- TXPUSH of the instance of Config (R237). -/
def execTxpush (imm : Byte) (s : State) : Host.Outcome State Fault Refusal :=
  txpushAt Config.params imm s

/-- TXENQ of the instance of Config (R238). -/
def execTxenq (s : State) : Host.Outcome State Fault Refusal :=
  txenqAt Config.params s

/-- TXCLR of the instance of Config (R239). -/
def execTxclr (s : State) : Host.Outcome State Fault Refusal :=
  txclrAt Config.params s

/-- RXLEN of the instance of Config (R231). -/
def execRxlen (s : State) : Host.Outcome State Fault Refusal :=
  rxlenAt Config.params s

/-- RXRD of the instance of Config (R240). -/
def execRxrd (imm : Byte) (s : State) : Host.Outcome State Fault Refusal :=
  rxrdAt Config.params imm s

/-- RXACK of the instance of Config (R241). -/
def execRxack (s : State) : Host.Outcome State Fault Refusal :=
  rxackAt Config.params s

/-- RDSR of the instance of Config (R242). -/
def execRdsr (n : BitVec 4) (s : State) : Host.Outcome State Fault Refusal :=
  rdsrAt Config.params n s

end Sys2Proof.Machine
end

