-- ==== Sys2Proof/Machine/InterruptController.lean ====
section
/-! DEFINITION. The Interrupt Controller's host commands (41_interrupt_controller.md): IEN, IDIS, ICLR. -/

namespace Sys2Proof.Machine

/-- IEN (R145). -/
def ienAt (_p : Params) (s : State) : Host.Outcome State Fault Refusal :=
  .next ((enable s).respond nothing)

/-- IDIS (R146). -/
def idisAt (_p : Params) (s : State) : Host.Outcome State Fault Refusal :=
  .next ((disable s).respond nothing)

/-- ICLR (R147). -/
def iclrAt (_p : Params) (s : State) : Host.Outcome State Fault Refusal :=
  .next ((clearPending s).respond nothing)

/-- IEN of the instance of Config (R145). -/
def execIen (s : State) : Host.Outcome State Fault Refusal :=
  ienAt Config.params s

/-- IDIS of the instance of Config (R146). -/
def execIdis (s : State) : Host.Outcome State Fault Refusal :=
  idisAt Config.params s

/-- ICLR of the instance of Config (R147). -/
def execIclr (s : State) : Host.Outcome State Fault Refusal :=
  iclrAt Config.params s

end Sys2Proof.Machine
end

