-- ==== Sys2Proof/Machine/LineDriver.lean ====
section
/-! DEFINITION. The Line Driver (40_line_driver.md): SETDIR, WRLINE, RDLINE, and the environment's step EXT. Each
meaning is given for any instance (`…At p`) and, under its `exec` name, for the instance of Config. -/

namespace Sys2Proof.Machine

/-- SETDIR line, mode (R123). -/
def setdirAt (p : Params) (l : Line) (m : Direction) (s : State) : Host.Outcome State Fault Refusal :=
  .next ((setDirection p l m s).respond nothing)

/-- WRLINE line, level (R124): faults where the line is an input (R262). -/
def wrlineAt (p : Params) (l : Line) (v : Level) (s : State) : Host.Outcome State Fault Refusal :=
  match writeLine p l v s with
  | .ok t => .next (t.respond nothing)
  | .error f => .fault f

/-- RDLINE line (R125). -/
def rdlineAt (_p : Params) (l : Line) (s : State) : Host.Outcome State Fault Refusal :=
  .next (s.respond (zextBit (levelBit (readLine s l))))

/-- EXT line, level (R128): a label, so no response. -/
def extAt (p : Params) (l : Line) (v : Level) (s : State) : Host.Outcome State Fault Refusal :=
  .next (externalChange p l v s)

/-- SETDIR of the instance of Config (R123). -/
def execSetdir (l : Line) (m : Direction) (s : State) : Host.Outcome State Fault Refusal :=
  setdirAt Config.params l m s

/-- WRLINE of the instance of Config (R124). -/
def execWrline (l : Line) (v : Level) (s : State) : Host.Outcome State Fault Refusal :=
  wrlineAt Config.params l v s

/-- RDLINE of the instance of Config (R125). -/
def execRdline (l : Line) (s : State) : Host.Outcome State Fault Refusal :=
  rdlineAt Config.params l s

/-- EXT of the instance of Config (R128). -/
def execExt (l : Line) (v : Level) (s : State) : Host.Outcome State Fault Refusal :=
  extAt Config.params l v s

end Sys2Proof.Machine
end

