-- ==== Sys2Proof/Machine/ResetInput.lean ====
section
/-! DEFINITION. The reset input (70_reset_and_hazards.md): the step RESET. -/

namespace Sys2Proof.Machine

/-- RESET (R290): a label, so no response. -/
def resetAt (_p : Params) (s : State) : Host.Outcome State Fault Refusal :=
  .next (resetBlock s)

/-- RESET of the instance of Config (R290). -/
def execReset (s : State) : Host.Outcome State Fault Refusal :=
  resetAt Config.params s

end Sys2Proof.Machine
end

