-- ==== Sys2Proof/Machine/Sampler.lean ====
section
/-! DEFINITION. The Bit Clock Sampler (42_bit_clock_sampler.md): the step SAMPLE, one bit per invocation. -/

namespace Sys2Proof.Machine

/-- `receive_complete` (R164): the unit goes to FBUF, or FOVF is set where FBUF is full. -/
def receiveComplete (p : Params) (s : State) : Except Fault State :=
  if s.flen.toNat < p.frameMax then do
    let t ← memWrite p .fbuf s.flen.toNat s.shift s
    return { t with flen := s.flen + 1#8, shift := 0#8 }
  else return { s with fovf := true, shift := 0#8 }

/-- `receive_bit()` (R162, R163). -/
def receiveBit (p : Params) (s : State) : Except Fault State :=
  let t := { s with
    shift := shiftIn p s.shift (levelBit (readLine s .data)),
    bitcnt := nextBitcnt p s }
  if completesUnit p s then receiveComplete p t else .ok t

/-- `transmit_complete` (R166): the next unit, or TXDONE where there is none. -/
def transmitComplete (p : Params) (s : State) : Except Fault State :=
  if s.txidx.toNat + 1 < s.txlen.toNat then do
    let u ← memRead p .txbuf (s.txidx.toNat + 1) s
    return { s with txidx := s.txidx + 1#8, txbyte := u }
  else return { s with txvalid := false, txdone := true }

/-- `transmit_bit()`: with a unit in hand (R165, R163), or the underflow hold (R167). -/
def transmitBit (p : Params) (s : State) : Except Fault State :=
  if s.txvalid then do
    let t ← writeLine p .data (levelOf (wireBit p s.txbyte s.bitcnt.toNat)) s
    let t := { t with bitcnt := nextBitcnt p s }
    if completesUnit p s then transmitComplete p t else return t
  else do
    let t ← writeLine p .data .high s
    return { t with bitcnt := BitVec.ofNat 3 ((s.bitcnt.toNat + 1) % p.bpu) }

/-- One invocation of the handler (R161). -/
def sampleBody (p : Params) (s : State) : Except Fault State :=
  match s.tdir with
  | .receiving => receiveBit p (takeInterrupt s)
  | .transmitting => transmitBit p (takeInterrupt s)

/-- SAMPLE (R161): refused where the step is not enabled (R95, log 7). -/
def sampleAt (p : Params) (s : State) : Host.Outcome State Fault Refusal :=
  if interruptEnabled s then finish (sampleBody p s) else .refused .sampleNotEnabled

/-- SAMPLE of the instance of Config (R161). -/
def execSample (s : State) : Host.Outcome State Fault Refusal :=
  sampleAt Config.params s

end Sys2Proof.Machine
end

