-- ==== Sys2Proof/Machine/Dispatch.lean ====
section
/-! DEFINITION. One arm for each constructor of Instr (30_encoding.md R94), for the instance of Config. -/

namespace Sys2Proof.Machine

def exec (i : Instr) (s : State) : Host.Outcome State Fault Refusal :=
  match i with
  | .nop => Sys2Proof.Machine.execNop s
  | .setdir l m => Sys2Proof.Machine.execSetdir l m s
  | .wrline l v => Sys2Proof.Machine.execWrline l v s
  | .rdline l => Sys2Proof.Machine.execRdline l s
  | .ien => Sys2Proof.Machine.execIen s
  | .idis => Sys2Proof.Machine.execIdis s
  | .iclr => Sys2Proof.Machine.execIclr s
  | .init => Sys2Proof.Machine.execInit s
  | .snoop on => Sys2Proof.Machine.execSnoop on s
  | .claim => Sys2Proof.Machine.execClaim s
  | .txpush imm => Sys2Proof.Machine.execTxpush imm s
  | .txenq => Sys2Proof.Machine.execTxenq s
  | .txclr => Sys2Proof.Machine.execTxclr s
  | .rxlen => Sys2Proof.Machine.execRxlen s
  | .rxrd imm => Sys2Proof.Machine.execRxrd imm s
  | .rxack => Sys2Proof.Machine.execRxack s
  | .rdsr n => Sys2Proof.Machine.execRdsr n s
  | .ext l v => Sys2Proof.Machine.execExt l v s
  | .sample => Sys2Proof.Machine.execSample s
  | .asm => Sys2Proof.Machine.execAsm s
  | .reset => Sys2Proof.Machine.execReset s

end Sys2Proof.Machine
end

