-- ==== Sys2Proof/Machine/Step.lean ====
section
/-! DEFINITION. One step of a run (20_memory.md R70): the next presented word, taken off the schedule, is run. -/

namespace Sys2Proof.Machine

/-- One step. With no word presented no agent steps and the state stays (log 1). A reserved word on the host port
is ignored (R96); a label entry that is no label is refused (log 9). -/
def step (s : State) : Host.Outcome State Fault Refusal :=
  match s.pending with
  | [] => .next s
  | e :: rest =>
    match fetch Config.params e with
    | .run i => exec i { s with pending := rest }
    | .ignored => .next (ignoreReserved { s with pending := rest })
    | .notALabel => .refused .notALabel

/-- The state with one instruction's word presented next (log 1): on the host port, or as a label where its major
opcode is a label's (R95). -/
def State.withFetchWord (s : State) (nbits w : Nat) : State :=
  { s with pending := presentWord (BitVec.ofNat 16 (w % 2 ^ nbits)) :: s.pending }

end Sys2Proof.Machine
end

