-- ==== Sys2Proof/Machine/Instance.lean ====
section
/-! DEFINITION. The meanings for any instance of the block (00_scope.md R10 to R15: "the model may take each as an
argument"). `exec` of Dispatch.lean is `execAt Config.params`. -/

namespace Sys2Proof.Machine

/-- One step of the instance with the parameters `p`. -/
def execAt (p : Params) (i : Instr) (s : State) : Host.Outcome State Fault Refusal :=
  match i with
  | .nop => nopAt p s
  | .setdir l m => setdirAt p l m s
  | .wrline l v => wrlineAt p l v s
  | .rdline l => rdlineAt p l s
  | .ien => ienAt p s
  | .idis => idisAt p s
  | .iclr => iclrAt p s
  | .init => initAt p s
  | .snoop on => snoopAt p on s
  | .claim => claimAt p s
  | .txpush imm => txpushAt p imm s
  | .txenq => txenqAt p s
  | .txclr => txclrAt p s
  | .rxlen => rxlenAt p s
  | .rxrd imm => rxrdAt p imm s
  | .rxack => rxackAt p s
  | .rdsr n => rdsrAt p n s
  | .ext l v => extAt p l v s
  | .sample => sampleAt p s
  | .asm => asmAt p s
  | .reset => resetAt p s

end Sys2Proof.Machine
end

