-- ==== Sys2Proof/Machine/Bus.lean ====
section
/-! DEFINITION. Several nodes on one bus (60_exceptions.md R273): instances composed through the wired-AND of the
three lines. The wire is ideal (R304); delays are not modelled (log 14). -/

namespace Sys2Proof.Machine

/-- One instance of the block on the bus. -/
structure Node where
  params : Params
  state : State

/-- The nodes, and the levels that the rest of the environment puts on the lines. -/
structure Bus where
  nodes : List Node
  rest : Lines Level

/-- Some node of the list pulls the line. -/
def somePulls (l : Line) (ns : List Node) : Bool :=
  ns.any fun n => pull n.state l

/-- `EXT_k[L]`: LOW exactly when another instance or the rest of the environment pulls the line (R273). -/
def Bus.extLevelOf (b : Bus) (k : Nat) (l : Line) : Level :=
  if b.rest.get l = .low ∨ somePulls l (b.nodes.eraseIdx k) = true then .low else .high

/-- Node `k` sees what the others put on the lines, as EXT steps with their `edge_detect()` (R273). -/
def Bus.settleNode (b : Bus) (k : Nat) (n : Node) : Node :=
  let see (l : Line) (s : State) := externalChange n.params l (b.extLevelOf k l) s
  { n with state := see .busy (see .data (see .clock n.state)) }

/-- Every node sees what the others put on the lines. -/
def Bus.settle (b : Bus) : Bus :=
  { b with nodes := b.nodes.mapIdx fun k n => b.settleNode k n }

/-- A step of the bus. -/
inductive BusStep where
  /-- Node `k` takes a step that is not EXT. -/
  | node (k : Nat) (i : Instr)
  /-- The rest of the environment changes a line. -/
  | rest (l : Line) (v : Level)
deriving DecidableEq, Repr

/-- One step of the bus; no successor where the node's step has none, where there is no node `k`, and for an EXT
given to one node, since EXT is what the other nodes and the rest of the environment do (R273). -/
def Bus.step (b : Bus) : BusStep → Option Bus
  | .node _ (.ext _ _) => none
  | .node k i =>
    match b.nodes[k]? with
    | none => none
    | some n =>
      match execAt n.params i n.state with
      | .next t => some { b with nodes := b.nodes.set k { n with state := t } }.settle
      | .fault _ => none
      | .refused _ => none
  | .rest l v => some { b with rest := b.rest.set l v }.settle

/-- A list of steps of the bus. -/
def Bus.run (b : Bus) : List BusStep → Option Bus
  | [] => some b
  | e :: es =>
    match b.step e with
    | some b' => b'.run es
    | none => none

end Sys2Proof.Machine
end

