-- ==== Sys2Proof/Safety.lean ====
section
/-! DEFINITION. The terms in which claims speak: the bus ownership token (10_state.md R57), what a host may do
(40_line_driver.md R127), the invariants (R58), runs, and the PROMPT premise (20_memory.md R75). -/

namespace Sys2Proof.Machine

/-- This node holds the Bus Ownership Token (R57). -/
def holdsToken (s : State) : Bool :=
  s.dir.busy == .output && s.out.busy == .low

/-- The steps that R58 excludes: SETDIR and WRLINE on DATA or BUSY. -/
def drivesBusLine : Instr → Bool
  | .setdir l _ => l != .clock
  | .wrline l _ => l != .clock
  | .nop => false
  | .rdline _ => false
  | .ien => false
  | .idis => false
  | .iclr => false
  | .init => false
  | .snoop _ => false
  | .claim => false
  | .txpush _ => false
  | .txenq => false
  | .txclr => false
  | .rxlen => false
  | .rxrd _ => false
  | .rxack => false
  | .rdsr _ => false
  | .ext _ _ => false
  | .sample => false
  | .asm => false
  | .reset => false

/-- SETDIR and WRLINE on CLOCK, which a host may use only while it is bus master (R127). -/
def drivesClock : Instr → Bool
  | .setdir l _ => l == .clock
  | .wrline l _ => l == .clock
  | .nop => false
  | .rdline _ => false
  | .ien => false
  | .idis => false
  | .iclr => false
  | .init => false
  | .snoop _ => false
  | .claim => false
  | .txpush _ => false
  | .txenq => false
  | .txclr => false
  | .rxlen => false
  | .rxrd _ => false
  | .rxack => false
  | .rdsr _ => false
  | .ext _ _ => false
  | .sample => false
  | .asm => false
  | .reset => false

/-- The step gives CLOCK back, as R127 requires of a host after a master frame. -/
def restoresClock (s : State) (i : Instr) : Bool :=
  i == .setdir .clock .input && s.dir.clock == .output

/-- The steps a host may take in a state (R127): no SETDIR and no WRLINE on DATA or BUSY, and on CLOCK only while
this node is bus master, or to give CLOCK back. DESIGN CHOICE (log 19): R127 and R233 allow CLOCK only while MASTER = 1,
yet R127, R236, R243 and step 8 of program P4 ask for SETDIR CLOCK, INPUT after the ASM step that has cleared MASTER;
the model allows that one step wherever DIR[CLOCK] = OUTPUT. -/
def hostMay (s : State) (i : Instr) : Bool :=
  !drivesBusLine i && (!drivesClock i || s.master || restoresClock s i)

/-- The Frame Assembler is in a phase that holds the bus (R58 item 3). -/
def ownsFrame (s : State) : Prop :=
  s.phase = .responding ∨ s.master = true

/-- The invariants of R58, items 1 to 7 (item 4 without its second sentence), with one more that makes them
inductive: an enqueued frame has a unit (R238). -/
structure BlockInv (p : Params) (s : State) : Prop where
  bitcnt_lt : s.bitcnt.toNat < p.bpu
  fproc_le : s.fproc.toNat ≤ s.flen.toNat
  flen_le : s.flen.toNat ≤ p.frameMax
  txlen_le : s.txlen.toNat ≤ p.txMax
  dlen_le : s.dlen.toNat ≤ p.frameMax
  token : s.dir.data = .output → holdsToken s = true
  tdir_iff_data : s.tdir = .transmitting ↔ s.dir.data = .output
  data_iff_busy : s.dir.data = .output ↔ s.dir.busy = .output
  busy_iff_owns : s.dir.busy = .output ↔ ownsFrame s
  idle_receiving : s.phase = .idle → s.tdir = .receiving
  idle_fproc : s.phase = .idle → s.fproc = 0#8
  idle_addressed : s.phase = .idle → s.addressed = false
  idle_master : s.phase = .idle → s.master = false
  data_released : s.dir.data = .input → s.out.data = .high
  busy_released : s.dir.busy = .input → s.out.busy = .high
  unit_queued : s.txvalid = true → s.txq = true
  unit_index : s.txvalid = true → s.txidx.toNat < s.txlen.toNat
  unit_in_hand : s.txvalid = true → s.txbyte = s.txbuf.read s.txidx.toNat
  no_frame_no_length : s.frdy = false → s.dlen = 0#8
  queued_nonempty : s.txq = true → 1 ≤ s.txlen.toNat

/-- The second sentence of R58 item 4: in IDLE the interrupt is off and nothing is half received. -/
structure IdleQuiet (s : State) : Prop where
  idle_ien : s.phase = .idle → s.ien = false
  idle_bitcnt : s.phase = .idle → s.bitcnt = 0#3
  idle_shift : s.phase = .idle → s.shift = 0#8
  idle_flen : s.phase = .idle → s.flen = 0#8
  idle_fovf : s.phase = .idle → s.fovf = false

/-- The three buffers are in canonical form, within their capacity. -/
structure BuffersWf (p : Params) (s : State) : Prop where
  fbuf_wf : s.fbuf.wf p.frameMax = true
  dbuf_wf : s.dbuf.wf p.frameMax = true
  txbuf_wf : s.txbuf.wf p.txMax = true

/-- The edge detector has seen the CLOCK wire as it is (R25, R141). -/
def clockSeen (s : State) : Prop :=
  s.clkPrev = wire s .clock

/-- The state in which the verdict on the next unexamined unit is asked for (R185): the address unit settles
ADDRESSED and opens the payload phase, and FPROC counts the unit. -/
def examined (p : Params) (s : State) : State :=
  if s.phase = .addressPhase then
    { s with addressed := s.fbuf.read 0 == p.nodeAddr, phase := .payloadPhase, fproc := s.fproc + 1#8 }
  else { s with fproc := s.fproc + 1#8 }

/-- The units of the frame that PROTO judges: the first FPROC of FBUF (R186). -/
def unitsExamined (s : State) : List Byte :=
  (List.range s.fproc.toNat).map s.fbuf.read

/-- The four DIAG bits cleared (R34). -/
def eraseDiag (s : State) : State :=
  { s with elost := false, fdisc := false, fdrop := false, noreply := false }

/-- An outcome with a function applied to its next state. -/
def mapNext (f : State → State) : Host.Outcome State Fault Refusal → Host.Outcome State Fault Refusal
  | .next s => .next (f s)
  | .fault r => .fault r
  | .refused r => .refused r

/-! ### The macros of 30_encoding.md R99 -/

/-- The steps of a list, one after the other; no successor where one of them has none. -/
def runSteps (p : Params) : List Instr → State → Option State
  | [], s => some s
  | i :: is, s =>
    match execAt p i s with
    | .next t => runSteps p is t
    | .fault _ => none
    | .refused _ => none

/-- One pulse of the remote clock, its last change the active edge (R13, R99). DESIGN CHOICE (log 18): R99 gives the
words for CLK_EDGE = RISING only; for FALLING the model takes the mirrored pulse, HIGH and then LOW. -/
def clockPulse (p : Params) : List Instr :=
  match p.clkEdge with
  | .rising => [.ext .clock .low, .ext .clock .high]
  | .falling => [.ext .clock .high, .ext .clock .low]

/-- RXBIT b (R99): the remote node puts a bit on DATA and gives one clock pulse, and the sampler takes it. -/
def rxBit (p : Params) (b : Bool) : List Instr :=
  .ext .data (levelOf b) :: (clockPulse p ++ [.sample])

/-- RXUNIT u (R99): RXBIT of each bit of a unit, in wire order (R62). -/
def rxUnit (p : Params) (u : Byte) : List Instr :=
  (List.range p.bpu).flatMap fun j => rxBit p (wireBit p u j)

/-- TXBIT (R99): one clock pulse of the remote node during which this node drives one bit. -/
def txBit (p : Params) : List Instr :=
  clockPulse p ++ [.sample]

/-- TXUNIT (R99): BPU times TXBIT. -/
def txUnit (p : Params) : List Instr :=
  (List.range p.bpu).flatMap fun _ => txBit p

/-- MCLK (R99), one clock pulse that the host of a bus master makes itself, its last change the active edge. DESIGN
CHOICE (log 18): R99 and R236 give the words for CLK_EDGE = RISING only; for FALLING the model takes HIGH, then LOW. -/
def mclk (p : Params) : List Instr :=
  match p.clkEdge with
  | .rising => [.wrline .clock .low, .wrline .clock .high, .sample]
  | .falling => [.wrline .clock .high, .wrline .clock .low, .sample]

/-- One bit from a transmitting node to a receiving node that share the DATA wire (42_bit_clock_sampler.md R170 b):
both see the clock pulse, the transmitter's SAMPLE comes first, and the receiver samples the wire as it then is. -/
def passBit (p q : Params) (a b : State) : Option (State × State) :=
  match runSteps p (txBit p) a with
  | none => none
  | some a' =>
    match runSteps q (clockPulse q ++ [.ext .data (wire a' .data), .sample]) b with
    | none => none
    | some b' => some (a', b')

/-- `n` bits passed one after the other. -/
def passBits (p q : Params) : Nat → State → State → Option (State × State)
  | 0, a, b => some (a, b)
  | n + 1, a, b =>
    match passBit p q a b with
    | none => none
    | some (a', b') => passBits p q n a' b'

/-! ### Runs and the PROMPT premise -/

/-- One step of a run: the state before, the step, the state after. -/
structure Event where
  before : State
  instr : Instr
  after : State
deriving DecidableEq, Repr

/-- A run from a state (R70): each step starts where the one before it ended. -/
def isRun (s : State) : List Event → Prop
  | [] => True
  | e :: es => e.before = s ∧ exec e.instr s = .next e.after ∧ isRun e.after es

/-- The step is an active edge of the CLOCK wire (00_scope.md R19: the transition selected by CLK_EDGE). DESIGN CHOICE
(log 17): every such change of the wire counts, one that INIT or RESET makes by releasing a CLOCK this node held LOW
too, although by R25 the edge detector does not see that one; the spec leaves open whether R75 means it. -/
def Event.isEdge (p : Params) (e : Event) : Bool :=
  activeEdge p.clkEdge (wire e.before .clock) (wire e.after .clock)

/-- The step is a SAMPLE that gives the Frame Assembler something to act on: it completes a received unit, raising FLEN
or setting FOVF (R164), or drives the last bit of the last unit and sets TXDONE (R166). These are the completions of
90_conflicts.md C6. A sent unit with another one after it is none: program P2 of 95_test_vectors.md, which R75 counts as
PROMPT, clocks out two units with no ASM between them. -/
def Event.completes (p : Params) (e : Event) : Bool :=
  e.instr == .sample && completesUnit p e.before
    && (e.before.tdir == .receiving
      || (e.before.txvalid && decide (e.before.txlen.toNat ≤ e.before.txidx.toNat + 1)))

/-- The step is a change of BUSY by the environment. -/
def Event.isExtBusy (e : Event) : Bool :=
  match e.instr with
  | .ext .busy _ => true
  | _ => false

/-- PROMPT, clause (a) (R75): between any two active edges with IEN = 1 there is a SAMPLE step. `unserved` says
that such an edge has come since the last SAMPLE. -/
def promptServed (p : Params) : Bool → List Event → Bool
  | _, [] => true
  | unserved, e :: es =>
    if e.isEdge p && e.after.ien then !unserved && promptServed p true es
    else if e.instr = .sample then promptServed p false es
    else promptServed p unserved es

/-- PROMPT, clause (b) (R75): an ASM step before the next active edge after every EXT BUSY step and every SAMPLE
step that completes a unit or sets TXDONE or FOVF (`Event.completes`). `owed` says that such a step has come since the last ASM. -/
def promptAssembled (p : Params) : Bool → List Event → Bool
  | _, [] => true
  | owed, e :: es =>
    if e.instr = .asm then promptAssembled p false es
    else if e.isEdge p && owed then false
    else promptAssembled p (owed || e.isExtBusy || e.completes p) es

/-- The part of PROMPT that the block's states show: clauses (a) and (b) of R75 (clause (c): log 13). -/
def promptRun (p : Params) (es : List Event) : Bool :=
  promptServed p false es && promptAssembled p false es

end Sys2Proof.Machine
end

