-- ==== Sys2Proof/Certificates/Slice0/Obligations.lean ====
section
/-! DEFINITION. The statements for the provers. `exec` and `step` are the instance of Config; statements about every
instance speak of `execAt p` for parameters `p` in the ranges of 00_scope.md (`p.Valid`). A frame is written as
`t = { s with … }`: every field not named there, the buffers among them, is as it was. -/

open Sys2Proof Sys2Proof.Machine

/-! ### Encoding -/

/-- The decoder gives back every well-formed instruction from its word, for every size of a unit (R94, R97, R98). -/
def Obligations.DecodeEncodeAgree : Prop :=
  ∀ (bpu : Nat) (i : Instr), i.fits bpu = true → decode bpu (encode i) = .ok i

/-- No bit of a word is dropped: the encoder gives back every word that decodes, and what it decodes to is
well-formed (R92, R94). -/
def Obligations.EncodeDecodeAgree : Prop :=
  ∀ (bpu : Nat) (w : Word) (i : Instr), decode bpu w = .ok i → encode i = w ∧ i.fits bpu = true

/-- A word decodes exactly where it selects a row of the map of R94, the rows may be tested in any order since no
word selects two, and every other word is reserved (R97). -/
def Obligations.DecodeSelectsOneRow : Prop :=
  (∀ (bpu : Nat) (w : Word), (∃ i, decode bpu w = .ok i) ↔ ∃ r ∈ opcodeRows, r.selects bpu w = true) ∧
  (∀ (bpu : Nat) (w : Word), (∃ e, decode bpu w = .error e) ↔ ∀ r ∈ opcodeRows, r.selects bpu w = false) ∧
  opcodeRows.Pairwise fun r r' => ∀ (bpu : Nat) (w : Word), ¬(r.selects bpu w = true ∧ r'.selects bpu w = true)

/-- Words of R98 and R99, one of each family, decode to the instructions they stand for. -/
def Obligations.DecodeSpecWords : Prop :=
  decode 8 0x1201#16 = .ok (.setdir .busy .output) ∧ decode 8 0x2100#16 = .ok (.wrline .data .low) ∧
  decode 8 0x4100#16 = .ok .idis ∧ decode 8 0x5101#16 = .ok (.snoop true) ∧
  decode 8 0x60DE#16 = .ok (.txpush 0xDE#8) ∧ decode 8 0x7103#16 = .ok (.rxrd 3#8) ∧
  decode 8 0x8F00#16 = .ok (.rdsr 15#4) ∧ decode 8 0xE201#16 = .ok (.ext .busy .high) ∧
  decode 8 0xF000#16 = .ok .sample ∧ decode 8 0xF100#16 = .ok .asm ∧ decode 8 0xF200#16 = .ok .reset

/-! ### The step -/

/-- A step runs the decoded instruction: a host command presented on the port, or a label word presented as a label,
is taken off the schedule and run by `exec`. -/
def Obligations.StepRunsTheDecodedInstruction : Prop :=
  ∀ (s : State) (w : Word) (rest : List Presented) (i : Instr), decode Config.params.bpu w = .ok i →
    (i.isLabel = false → s.pending = .port w :: rest → step s = exec i { s with pending := rest }) ∧
    (i.isLabel = true → s.pending = .label w :: rest → step s = exec i { s with pending := rest })

/-- A reserved word on the host port, a label word among them, changes no state and returns 0x00 (R96). -/
def Obligations.ReservedWordIsIgnored : Prop :=
  ∀ (s : State) (w : Word) (rest : List Presented), s.pending = .port w :: rest →
    ((∃ e, decode Config.params.bpu w = .error e) ∨ (∃ i, decode Config.params.bpu w = .ok i ∧ i.isLabel = true)) →
    step s = .next { s with pending := rest, rsp := 0x00#8 }

/-- The model's own conventions of the schedule: with nothing presented the state stays (log 1), and an entry that
is presented as a label and is no label word is refused (log 9). -/
def Obligations.ScheduleConventions : Prop :=
  (∀ s : State, s.pending = [] → step s = .next s) ∧
  ∀ (s : State) (w : Word) (rest : List Presented), s.pending = .label w :: rest →
    (∀ i, decode Config.params.bpu w = .ok i → i.isLabel = false) → step s = .refused .notALabel

/-- `exec` is the instance of Config: what is stated of `execAt p` for every instance holds of it, since its
parameters are in the ranges of R10, R11 and R15. -/
def Obligations.ExecIsTheConfiguredInstance : Prop :=
  Config.params.Valid ∧ ∀ (i : Instr) (s : State), exec i s = execAt Config.params i s

/-! ### The Line Driver -/

/-- `pull` and `wire` (R120, R121). -/
def Obligations.WireIsTheWiredAnd : Prop :=
  ∀ (s : State) (l : Line),
    (pull s l = true ↔ s.dir.get l = .output ∧ s.out.get l = .low) ∧
    (wire s l = .low ↔ s.extLevel.get l = .low ∨ pull s l = true) ∧
    (wire s l = .high ↔ s.extLevel.get l = .high ∧ pull s l = false)

/-- SETDIR (R123): the direction, the edge it may make on CLOCK, the response, and nothing else; the same mode again
changes nothing. -/
def Obligations.SetdirResult : Prop :=
  ∀ (l : Line) (m : Direction) (s : State), ∃ t, exec (.setdir l m) s = .next t ∧
    t.dir.get l = m ∧ (∀ k, k ≠ l → t.dir.get k = s.dir.get k) ∧ t.rsp = 0x00#8 ∧
    t.clkPrev = wire t .clock ∧
    (t.ipend = true ↔ s.ipend = true ∨ (s.clkPrev = .low ∧ wire t .clock = .high)) ∧
    (t.elost = true ↔ s.elost = true ∨
      (s.clkPrev = .low ∧ wire t .clock = .high ∧ s.ipend = true ∧ s.ien = true)) ∧
    (m = .output → s.out.get l = .low → wire t l = .low) ∧
    (s.out.get l = .high → wire t l = wire s l) ∧
    (m = .input → wire t l = s.extLevel.get l) ∧
    (s.dir.get l = m → s.clkPrev = wire s .clock → t = { s with rsp := 0x00#8 }) ∧
    t = { s with dir := t.dir, ipend := t.ipend, elost := t.elost, clkPrev := t.clkPrev, rsp := t.rsp } ∧
    ∀ b a, (t.buf b).read a = (s.buf b).read a

/-- WRLINE (R124, R262): the level of an OUTPUT line, the edge it may make on CLOCK, the response, and nothing else;
of an INPUT line, the fault CallerMisuse. -/
def Obligations.WrlineResult : Prop :=
  ∀ (l : Line) (v : Level) (s : State),
    (s.dir.get l = .input → exec (.wrline l v) s = .fault .callerMisuse) ∧
    (s.dir.get l = .output → ∃ t, exec (.wrline l v) s = .next t ∧
      t.out.get l = v ∧ (∀ k, k ≠ l → t.out.get k = s.out.get k) ∧ t.rsp = 0x00#8 ∧
      t.clkPrev = wire t .clock ∧
      (t.ipend = true ↔ s.ipend = true ∨ (s.clkPrev = .low ∧ wire t .clock = .high)) ∧
      (t.elost = true ↔ s.elost = true ∨
        (s.clkPrev = .low ∧ wire t .clock = .high ∧ s.ipend = true ∧ s.ien = true)) ∧
      (v = .low → wire t l = .low) ∧ (v = .high → wire t l = s.extLevel.get l) ∧
      (s.out.get l = v → s.clkPrev = wire s .clock → t = { s with rsp := 0x00#8 }) ∧
      t = { s with out := t.out, ipend := t.ipend, elost := t.elost, clkPrev := t.clkPrev, rsp := t.rsp } ∧
      ∀ b a, (t.buf b).read a = (s.buf b).read a)

/-- RDLINE (R125): an INPUT line gives the wire, which is the environment's level; an OUTPUT line gives the level this
node drives; no state changes but the response. -/
def Obligations.RdlineResult : Prop :=
  ∀ (l : Line) (s : State), ∃ t, exec (.rdline l) s = .next t ∧
    (s.dir.get l = .input → wire s l = s.extLevel.get l ∧
      t.rsp = if s.extLevel.get l = .high then 0x01#8 else 0x00#8) ∧
    (s.dir.get l = .output → t.rsp = if s.out.get l = .high then 0x01#8 else 0x00#8) ∧
    t = { s with rsp := t.rsp } ∧ ∀ b a, (t.buf b).read a = (s.buf b).read a

/-- EXT (R128): the environment's level, and through `edge_detect()` IPEND, ELOST and CLK_PREV; a level already held
changes nothing. -/
def Obligations.ExtResult : Prop :=
  ∀ (l : Line) (v : Level) (s : State), ∃ t, exec (.ext l v) s = .next t ∧
    t.extLevel.get l = v ∧ (∀ k, k ≠ l → t.extLevel.get k = s.extLevel.get k) ∧
    t.clkPrev = wire t .clock ∧
    (t.ipend = true ↔ s.ipend = true ∨ (s.clkPrev = .low ∧ wire t .clock = .high)) ∧
    (t.elost = true ↔ s.elost = true ∨
      (s.clkPrev = .low ∧ wire t .clock = .high ∧ s.ipend = true ∧ s.ien = true)) ∧
    (s.extLevel.get l = v → s.clkPrev = wire s .clock → t = s) ∧
    t = { s with extLevel := t.extLevel, ipend := t.ipend, elost := t.elost, clkPrev := t.clkPrev } ∧
    ∀ b a, (t.buf b).read a = (s.buf b).read a

/-! ### The Interrupt Controller -/

/-- `edge_detect()` of every instance (R141): only the active edge sets IPEND, whether or not IEN is set; a second
one is recorded as lost only where IEN = 1; the detector remembers the wire. -/
def Obligations.EdgeDetectResult : Prop :=
  ∀ (p : Params) (s : State),
    let c := wire s .clock
    let active := (p.clkEdge = .rising ∧ s.clkPrev = .low ∧ c = .high) ∨
      (p.clkEdge = .falling ∧ s.clkPrev = .high ∧ c = .low)
    (active → s.ipend = false → edgeDetect p s = { s with ipend := true, clkPrev := c }) ∧
    (active → s.ipend = true → s.ien = true → edgeDetect p s = { s with elost := true, clkPrev := c }) ∧
    (active → s.ipend = true → s.ien = false → edgeDetect p s = { s with clkPrev := c }) ∧
    (¬active → edgeDetect p s = { s with clkPrev := c })

/-- IEN, IDIS and ICLR (R145, R146, R147): one bit each, and the response. -/
def Obligations.InterruptCommandsResult : Prop :=
  ∀ s : State,
    exec .ien s = .next { s with ien := true, rsp := 0x00#8 } ∧
    exec .idis s = .next { s with ien := false, rsp := 0x00#8 } ∧
    exec .iclr s = .next { s with ipend := false, rsp := 0x00#8 }

/-! ### Reset -/

/-- RESET leaves every field of the block at the value of R290 and the environment's levels as they are; INIT leaves
the same state and returns 0x00 (R234). That RESET keeps the last response and the words still to be presented is the
model's choice (logs 3 and 1), not the spec's. -/
def Obligations.ResetAndInitResult : Prop :=
  ∀ s : State, ∃ t, exec .reset s = .next t ∧ exec .init s = .next { t with rsp := 0x00#8 } ∧
    t.dir = ⟨.input, .input, .input⟩ ∧ t.out = ⟨.high, .high, .high⟩ ∧ t.ien = false ∧ t.ipend = false ∧
    t.clkPrev = wire t .clock ∧ t.clkPrev = s.extLevel.clock ∧
    t.bitcnt = 0#3 ∧ t.phase = .idle ∧ t.tdir = .receiving ∧ t.shift = 0#8 ∧
    t.addressed = false ∧ t.master = false ∧ t.snoop = false ∧ t.busyLast = .low ∧
    (∀ b a, (t.buf b).read a = 0#8) ∧ t.flen = 0#8 ∧ t.fproc = 0#8 ∧ t.fovf = false ∧
    t.dlen = 0#8 ∧ t.dobs = false ∧ t.frdy = false ∧
    t.txlen = 0#8 ∧ t.txq = false ∧ t.txidx = 0#8 ∧ t.txbyte = 0#8 ∧ t.txvalid = false ∧ t.txdone = false ∧
    t.elost = false ∧ t.fdisc = false ∧ t.fdrop = false ∧ t.noreply = false ∧
    t.extLevel = s.extLevel ∧ t.rsp = s.rsp ∧ t.pending = s.pending

/-- The status dump after RESET (R291): CLK_PREV, bit 6 of SR1, follows the CLOCK wire. -/
def Obligations.ResetStatusDump : Prop :=
  ∀ s t : State, exec .reset s = .next t →
    (List.range 16).map (fun n => statusRegister Config.params t (BitVec.ofNat 4 n)) =
      [0x00#8, if s.extLevel.clock = .high then 0x40#8 else 0x00#8, 0x70#8, 0x00#8, 0x00#8, 0x00#8, 0x00#8, 0x00#8,
       0x00#8, 0x00#8, 0x00#8, 0x00#8, Config.nodeAddr, 0x08#8, 0x20#8, 0x20#8]

/-! ### The Bit Clock Sampler -/

/-- SAMPLE while receiving, BPU = 8 and most significant bit first (R161 to R164): one bit of DATA is shifted in; the
eighth hands the unit to FBUF, or sets FOVF where FBUF is full. -/
def Obligations.SampleReceiveResult : Prop :=
  ∀ s : State, s.ien = true → s.ipend = true → s.tdir = .receiving →
    ∃ t, exec .sample s = .next t ∧
      let sh : Byte := BitVec.ofNat 8 (2 * s.shift.toNat + if readLine s .data = .high then 1 else 0)
      (s.bitcnt ≠ 7#3 → t = { s with ipend := false, shift := sh, bitcnt := s.bitcnt + 1#3 }) ∧
      (s.bitcnt = 7#3 → s.flen.toNat < 32 →
        t = { s with ipend := false, shift := 0#8, bitcnt := 0#3, flen := s.flen + 1#8, fbuf := t.fbuf } ∧
        (s.fbuf.wf 32 = true → t.fbuf.read s.flen.toNat = sh) ∧
        ∀ a, a ≠ s.flen.toNat → t.fbuf.read a = s.fbuf.read a) ∧
      (s.bitcnt = 7#3 → 32 ≤ s.flen.toNat →
        t = { s with ipend := false, shift := 0#8, bitcnt := 0#3, fovf := true })

/-- SAMPLE while transmitting with a unit in hand, BPU = 8 and most significant bit first (R161, R165, R166): the next
bit goes to DATA; the eighth loads the next unit, or raises TXDONE where there is none. -/
def Obligations.SampleTransmitResult : Prop :=
  ∀ s : State, s.ien = true → s.ipend = true → s.tdir = .transmitting → s.txvalid = true →
    s.dir.data = .output → s.clkPrev = wire s .clock → s.txlen.toNat ≤ 32 →
    let out : Lines Level := { s.out with data := if s.txbyte.getLsbD (7 - s.bitcnt.toNat) then .high else .low }
    (s.bitcnt ≠ 7#3 → exec .sample s = .next { s with ipend := false, out := out, bitcnt := s.bitcnt + 1#3 }) ∧
    (s.bitcnt = 7#3 → s.txidx.toNat + 1 < s.txlen.toNat →
      exec .sample s = .next { s with
        ipend := false, out := out, bitcnt := 0#3, txidx := s.txidx + 1#8,
        txbyte := s.txbuf.read (s.txidx.toNat + 1) }) ∧
    (s.bitcnt = 7#3 → s.txlen.toNat ≤ s.txidx.toNat + 1 →
      exec .sample s = .next { s with
        ipend := false, out := out, bitcnt := 0#3, txvalid := false, txdone := true })

/-- The underflow hold of every instance (R167): with no unit in hand DATA is released and the counter goes on. -/
def Obligations.SampleUnderflowHold : Prop :=
  ∀ (p : Params) (s : State), p.Valid → s.ien = true → s.ipend = true → s.tdir = .transmitting →
    s.txvalid = false → s.dir.data = .output → s.clkPrev = wire s .clock →
    ∃ t, execAt p .sample s = .next t ∧ t.bitcnt.toNat = (s.bitcnt.toNat + 1) % p.bpu ∧
      t.out = { s.out with data := .high } ∧
      t = { s with ipend := false, out := t.out, bitcnt := t.bitcnt }

/-- Where SAMPLE does not run: it is refused exactly where it is not enabled (R95, R161), and it faults where it must
drive DATA while DATA is an input, which takes a host that broke R127 (R161, R269); with TXLEN within the capacity, as
R58 item 1 has it, it faults nowhere else. -/
def Obligations.SampleStops : Prop :=
  ∀ s : State,
    (s.ien = false ∨ s.ipend = false ↔ exec .sample s = .refused .sampleNotEnabled) ∧
    (s.ien = true → s.ipend = true → s.tdir = .transmitting → s.dir.data = .input →
      exec .sample s = .fault .callerMisuse) ∧
    (s.txlen.toNat ≤ 32 → ∀ f, exec .sample s = .fault f →
      f = .callerMisuse ∧ s.ien = true ∧ s.ipend = true ∧ s.tdir = .transmitting ∧ s.dir.data = .input)

/-- R170 (a), for every instance: RXUNIT u, BPU pulses that carry the bits of u in wire order, appends exactly u. R99
gives the words of RXUNIT for CLK_EDGE = RISING only; for FALLING the pulse (`clockPulse`: HIGH, then LOW) is the model's
choice (log 18). -/
def Obligations.SamplerReconstructsTheUnit : Prop :=
  ∀ (p : Params) (s : State) (u : Byte), p.Valid → u.toNat < 2 ^ p.bpu →
    s.ien = true → s.ipend = false → s.tdir = .receiving → s.dir.clock = .input → s.dir.data = .input →
    s.bitcnt = 0#3 → s.shift = 0#8 → s.flen.toNat < p.frameMax → s.fbuf.wf p.frameMax = true → clockSeen s →
    ∃ t, runSteps p (rxUnit p u) s = some t ∧
      t.flen = s.flen + 1#8 ∧ t.fbuf.read s.flen.toNat = u ∧ t.bitcnt = 0#3 ∧ t.shift = 0#8 ∧
      (∀ a, a ≠ s.flen.toNat → t.fbuf.read a = s.fbuf.read a) ∧
      t = { s with fbuf := t.fbuf, flen := t.flen, extLevel := t.extLevel, clkPrev := t.clkPrev }

/-- R170 (b), for every two instances with the same unit size and bit order: the frame that one sends reaches the
FBUF of the other, unit by unit and in order. Where an instance has CLK_EDGE = FALLING, the words of its clock pulse
(`clockPulse`) are the model's choice (log 18): R99 gives those for RISING only. -/
def Obligations.TransmitReceiveRoundTrip : Prop :=
  ∀ (p q : Params) (a b : State), p.Valid → q.Valid → p.bpu = q.bpu → p.bitOrder = q.bitOrder →
    a.ien = true → a.ipend = false → a.tdir = .transmitting → a.dir.clock = .input → a.dir.data = .output →
    a.extLevel.data = .high → a.bitcnt = 0#3 → a.txvalid = true → a.txidx = 0#8 → a.txbyte = a.txbuf.read 0 →
    1 ≤ a.txlen.toNat → a.txlen.toNat ≤ p.txMax → (∀ j, (a.txbuf.read j).toNat < 2 ^ p.bpu) →
    b.ien = true → b.ipend = false → b.tdir = .receiving → b.dir.clock = .input → b.dir.data = .input →
    b.bitcnt = 0#3 → b.shift = 0#8 → b.flen.toNat + a.txlen.toNat ≤ q.frameMax → b.fbuf.wf q.frameMax = true →
    ∃ a' b', passBits p q (a.txlen.toNat * p.bpu) a b = some (a', b') ∧
      b'.flen.toNat = b.flen.toNat + a.txlen.toNat ∧
      (∀ j, j < a.txlen.toNat → b'.fbuf.read (b.flen.toNat + j) = a.txbuf.read j) ∧
      (∀ k, k < b.flen.toNat → b'.fbuf.read k = b.fbuf.read k) ∧
      a'.txdone = true ∧ a'.txvalid = false

/-- What the sampler writes (R160): of the block's fields nothing but these; it never writes TDIR, a direction register,
PHASE or a delivery field. -/
def Obligations.SampleWritesOnly : Prop :=
  ∀ (p : Params) (s t : State), s.clkPrev = wire s .clock → execAt p .sample s = .next t →
    t = { s with
      ipend := false, bitcnt := t.bitcnt, shift := t.shift, fbuf := t.fbuf, flen := t.flen, fovf := t.fovf,
      txidx := t.txidx, txbyte := t.txbyte, txvalid := t.txvalid, txdone := t.txdone,
      out := { s.out with data := t.out.data } } ∧
    ∀ a, a ≠ s.flen.toNat → t.fbuf.read a = s.fbuf.read a

/-! ### The Frame Assembler -/

/-- ASM in IDLE (R181, R182): BUSY high is remembered; BUSY low after it starts a frame, with the interrupt armed and
no edge pending; BUSY low before it has been seen high does nothing. -/
def Obligations.AsmIdleResult : Prop :=
  ∀ s : State, s.phase = .idle →
    (readLine s .busy = .high → exec .asm s = .next { s with busyLast := .high }) ∧
    (readLine s .busy = .low → s.busyLast = .high →
      exec .asm s = .next { s with
        busyLast := .low, flen := 0#8, fproc := 0#8, fovf := false, addressed := false, bitcnt := 0#3,
        shift := 0#8, tdir := .receiving, phase := .addressPhase, ien := true, ipend := false }) ∧
    (readLine s .busy = .low → s.busyLast = .low → exec .asm s = .next s)

/-- ASM of a bus master and of a responder, before the last unit is out (R183, R196): the master's phase follows the
unit being sent, and a responder waits. -/
def Obligations.AsmWhileTransmitting : Prop :=
  ∀ s : State, s.phase ≠ .idle → s.txdone = false →
    (s.master = true → s.phase = .addressPhase → 1 ≤ s.txidx.toNat →
      exec .asm s = .next { s with phase := .payloadPhase }) ∧
    (s.master = true → (s.phase ≠ .addressPhase ∨ s.txidx = 0#8) → exec .asm s = .next s) ∧
    (s.master = false → s.phase = .responding → exec .asm s = .next s)

/-- The end of a transmission (R197, R223), of a bus master or of a responder: both lines are released, the response
queue is emptied and the engine is IDLE with the interrupt off. -/
def Obligations.AsmEndsTransmission : Prop :=
  ∀ s : State, s.phase ≠ .idle → (s.master = true ∨ s.phase = .responding) → s.txdone = true →
    s.dir.data = .output → s.dir.busy = .output → s.clkPrev = wire s .clock →
    exec .asm s = .next { s with
      out := { s.out with data := .high, busy := .high }, dir := { s.dir with data := .input, busy := .input },
      tdir := .receiving, txq := false, txlen := 0#8, txidx := 0#8, txbyte := 0#8, txvalid := false,
      txdone := false, master := false, busyLast := .low, phase := .idle, bitcnt := 0#3, shift := 0#8,
      flen := 0#8, fproc := 0#8, fovf := false, addressed := false, ien := false }

/-- The frame goes on (R184): with every unit examined, no overflow and BUSY low, ASM changes nothing. -/
def Obligations.AsmWaitsForTheNextUnit : Prop :=
  ∀ s : State, (s.phase = .addressPhase ∨ s.phase = .payloadPhase) → s.master = false → s.fproc = s.flen →
    s.fovf = false → readLine s .busy = .low → exec .asm s = .next s

/-- The address unit of another node, not snooping (R185): the engine drops to IDLE early, whatever else has arrived,
with no DIAG bit and no line touched. -/
def Obligations.AsmDropsForeignFrame : Prop :=
  ∀ (p : Params) (s : State), p.Valid → s.phase = .addressPhase → s.master = false →
    s.fproc.toNat < s.flen.toNat → s.fbuf.read 0 ≠ p.nodeAddr → s.snoop = false →
    execAt p .asm s = .next { s with
      phase := .idle, tdir := .receiving, bitcnt := 0#3, shift := 0#8, flen := 0#8, fproc := 0#8, fovf := false,
      addressed := false, ien := false }

/-- A unit that leaves the frame unfinished (R184 to R187): ADDRESSED and the payload phase are settled by the address
unit and the unit is counted; a REPLY verdict for another node's frame is one of these. ASM then goes on as it does from
the state in which the unit is examined, whatever units follow and whatever FOVF and BUSY say; where it was the last
unit, with no overflow and BUSY low, nothing else changes. -/
def Obligations.AsmAccumulatesUnit : Prop :=
  ∀ (p : Params) (s : State), p.Valid → (s.phase = .addressPhase ∨ s.phase = .payloadPhase) → s.master = false →
    s.fproc.toNat < s.flen.toNat → s.flen.toNat ≤ p.frameMax →
    (s.phase = .addressPhase → s.fbuf.read 0 = p.nodeAddr ∨ s.snoop = true) →
    let e := examined p s
    let v := p.judge (unitsExamined e) e.addressed
    (v = .more ∨ v = .openEnded ∨ (v = .reply ∧ e.addressed = false)) →
    execAt p .asm s = execAt p .asm e ∧
    (s.fproc.toNat + 1 = s.flen.toNat → s.fovf = false → readLine s .busy = .low → execAt p .asm s = .next e)

/-- Verdict COMPLETE (R188, R190): the units judged are copied to DBUF and the engine is IDLE; where the last frame
has not been taken, nothing of it is overwritten and FDROP is set. -/
def Obligations.AsmDeliversCompleteFrame : Prop :=
  ∀ (p : Params) (s : State), p.Valid → (s.phase = .addressPhase ∨ s.phase = .payloadPhase) → s.master = false →
    s.fproc.toNat < s.flen.toNat → s.flen.toNat ≤ p.frameMax → s.dbuf.wf p.frameMax = true →
    (s.phase = .addressPhase → s.fbuf.read 0 = p.nodeAddr ∨ s.snoop = true) →
    let e := examined p s
    p.judge (unitsExamined e) e.addressed = .complete →
    (s.frdy = false → ∃ t, execAt p .asm s = .next t ∧
      t = { s with
        phase := .idle, tdir := .receiving, bitcnt := 0#3, shift := 0#8, flen := 0#8, fproc := 0#8,
        fovf := false, addressed := false, ien := false,
        dbuf := t.dbuf, dlen := e.fproc, dobs := !e.addressed, frdy := true } ∧
      (∀ a, a < e.fproc.toNat → t.dbuf.read a = s.fbuf.read a) ∧
      ∀ a, e.fproc.toNat ≤ a → t.dbuf.read a = s.dbuf.read a) ∧
    (s.frdy = true → execAt p .asm s = .next { s with
      phase := .idle, tdir := .receiving, bitcnt := 0#3, shift := 0#8, flen := 0#8, fproc := 0#8,
      fovf := false, addressed := false, ien := false, fdrop := true })

/-- Verdict VIOLATION (R189, R191, R192): the frame is discarded, nothing is delivered, and the engine is IDLE. -/
def Obligations.AsmDiscardsViolation : Prop :=
  ∀ (p : Params) (s : State), p.Valid → (s.phase = .addressPhase ∨ s.phase = .payloadPhase) → s.master = false →
    s.fproc.toNat < s.flen.toNat → s.flen.toNat ≤ p.frameMax →
    (s.phase = .addressPhase → s.fbuf.read 0 = p.nodeAddr ∨ s.snoop = true) →
    let e := examined p s
    p.judge (unitsExamined e) e.addressed = .violation →
    execAt p .asm s = .next { s with
      phase := .idle, tdir := .receiving, bitcnt := 0#3, shift := 0#8, flen := 0#8, fproc := 0#8,
      fovf := false, addressed := false, ien := false, fdisc := true }

/-- Verdict REPLY with a response enqueued (R193, R194, R203): the command is delivered, this node takes the token and
turns DATA round, and every unit and bit sampled after the command is dropped. -/
def Obligations.AsmBeginsResponse : Prop :=
  ∀ (p : Params) (s : State), p.Valid → (s.phase = .addressPhase ∨ s.phase = .payloadPhase) → s.master = false →
    s.fproc.toNat < s.flen.toNat → s.flen.toNat ≤ p.frameMax → s.dbuf.wf p.frameMax = true →
    (s.phase = .addressPhase → s.fbuf.read 0 = p.nodeAddr) → (s.phase = .payloadPhase → s.addressed = true) →
    s.txq = true → s.clkPrev = wire s .clock →
    let e := examined p s
    p.judge (unitsExamined e) true = .reply →
    ∃ t, execAt p .asm s = .next t ∧
      t = { s with
        phase := .responding, addressed := true, tdir := .transmitting,
        dir := { s.dir with data := .output, busy := .output }, out := { s.out with busy := .low },
        txidx := 0#8, txbyte := s.txbuf.read 0, txvalid := true, txdone := false,
        bitcnt := 0#3, shift := 0#8, flen := e.fproc, fproc := e.fproc,
        dbuf := t.dbuf, dlen := if s.frdy then s.dlen else e.fproc, dobs := if s.frdy then s.dobs else false,
        frdy := true, fdrop := s.fdrop || s.frdy } ∧
      (∀ a, s.frdy = false → a < e.fproc.toNat → t.dbuf.read a = s.fbuf.read a) ∧
      (∀ a, s.frdy = true ∨ e.fproc.toNat ≤ a → t.dbuf.read a = s.dbuf.read a)

/-- Verdict REPLY with nothing enqueued (R193): the command is delivered, the node stays silent, NOREPLY is set. -/
def Obligations.AsmStaysSilent : Prop :=
  ∀ (p : Params) (s : State), p.Valid → (s.phase = .addressPhase ∨ s.phase = .payloadPhase) → s.master = false →
    s.fproc.toNat < s.flen.toNat → s.flen.toNat ≤ p.frameMax → s.dbuf.wf p.frameMax = true →
    (s.phase = .addressPhase → s.fbuf.read 0 = p.nodeAddr) → (s.phase = .payloadPhase → s.addressed = true) →
    s.txq = false →
    let e := examined p s
    p.judge (unitsExamined e) true = .reply →
    ∃ t, execAt p .asm s = .next t ∧
      t = { s with
        phase := .idle, tdir := .receiving, bitcnt := 0#3, shift := 0#8, flen := 0#8, fproc := 0#8,
        fovf := false, addressed := false, ien := false, noreply := true,
        dbuf := t.dbuf, dlen := if s.frdy then s.dlen else e.fproc, dobs := if s.frdy then s.dobs else false,
        frdy := true, fdrop := s.fdrop || s.frdy } ∧
      (∀ a, s.frdy = false → a < e.fproc.toNat → t.dbuf.read a = s.fbuf.read a) ∧
      (∀ a, s.frdy = true ∨ e.fproc.toNat ≤ a → t.dbuf.read a = s.dbuf.read a)

/-- A BUSY release that truncates the frame, and an overflow (R195, R201, R263): the frame is discarded without a
partial delivery, on every verdict but OPEN, as which an observer's REPLY is read (R186); a BUSY pulse in which no bit
was sampled is no discard. -/
def Obligations.AsmDiscardsTruncatedFrame : Prop :=
  ∀ (p : Params) (s : State), p.Valid → (s.phase = .addressPhase ∨ s.phase = .payloadPhase) → s.master = false →
    s.fproc = s.flen → s.flen.toNat ≤ p.frameMax →
    let idle : State := { s with
      phase := .idle, tdir := .receiving, bitcnt := 0#3, shift := 0#8, flen := 0#8, fproc := 0#8,
      fovf := false, addressed := false, ien := false }
    (s.fovf = true → execAt p .asm s = .next { idle with fdisc := true }) ∧
    (s.fovf = false → readLine s .busy = .high → s.bitcnt ≠ 0#3 →
      execAt p .asm s = .next { idle with fdisc := true, busyLast := .high }) ∧
    (s.fovf = false → readLine s .busy = .high → s.bitcnt = 0#3 → s.fproc ≠ 0#8 →
      p.judge (unitsExamined s) s.addressed ≠ .openEnded →
      ¬(p.judge (unitsExamined s) s.addressed = .reply ∧ s.addressed = false) →
      execAt p .asm s = .next { idle with fdisc := true, busyLast := .high }) ∧
    (s.fovf = false → readLine s .busy = .high → s.bitcnt = 0#3 → s.fproc = 0#8 →
      execAt p .asm s = .next { idle with busyLast := .high })

/-- A BUSY release that ends a whole frame (R195): units judged OPEN, or REPLY in another node's frame, which is read as
OPEN (R186), and no unit half received are delivered, or, where the last frame has not been taken, counted as dropped. -/
def Obligations.AsmDeliversOpenFrame : Prop :=
  ∀ (p : Params) (s : State), p.Valid → (s.phase = .addressPhase ∨ s.phase = .payloadPhase) → s.master = false →
    s.fproc = s.flen → s.flen.toNat ≤ p.frameMax → s.fproc ≠ 0#8 → s.bitcnt = 0#3 → s.fovf = false →
    s.dbuf.wf p.frameMax = true → readLine s .busy = .high →
    (p.judge (unitsExamined s) s.addressed = .openEnded ∨
      (p.judge (unitsExamined s) s.addressed = .reply ∧ s.addressed = false)) →
    let idle : State := { s with
      phase := .idle, tdir := .receiving, bitcnt := 0#3, shift := 0#8, flen := 0#8, fproc := 0#8,
      fovf := false, addressed := false, ien := false, busyLast := .high }
    (s.frdy = false → ∃ t, execAt p .asm s = .next t ∧
      t = { idle with dbuf := t.dbuf, dlen := s.fproc, dobs := !s.addressed, frdy := true } ∧
      (∀ a, a < s.fproc.toNat → t.dbuf.read a = s.fbuf.read a) ∧
      ∀ a, s.fproc.toNat ≤ a → t.dbuf.read a = s.dbuf.read a) ∧
    (s.frdy = true → execAt p .asm s = .next { idle with fdrop := true })

/-- What ASM never writes (R205), in every instance. -/
def Obligations.AsmWritesOnly : Prop :=
  ∀ (p : Params) (s t : State), s.clkPrev = wire s .clock → execAt p .asm s = .next t →
    t = { s with
      phase := t.phase, tdir := t.tdir, addressed := t.addressed, master := t.master, busyLast := t.busyLast,
      bitcnt := t.bitcnt, shift := t.shift, flen := t.flen, fproc := t.fproc, fovf := t.fovf,
      dbuf := t.dbuf, dlen := t.dlen, dobs := t.dobs, frdy := t.frdy,
      txq := t.txq, txlen := t.txlen, txidx := t.txidx, txbyte := t.txbyte, txvalid := t.txvalid,
      txdone := t.txdone, ien := t.ien, ipend := t.ipend,
      dir := { s.dir with data := t.dir.data, busy := t.dir.busy },
      out := { s.out with data := t.out.data, busy := t.out.busy },
      fdisc := t.fdisc, fdrop := t.fdrop, noreply := t.noreply }

/-! ### The host interface -/

/-- NOP (R230). -/
def Obligations.NopResult : Prop :=
  ∀ s : State, ∃ t, exec .nop s = .next t ∧ t = { s with rsp := 0x00#8 } ∧
    ∀ n, statusRegister Config.params t n = statusRegister Config.params s n

/-- SNOOP v (R235): the bit, the response, and nothing else. -/
def Obligations.SnoopResult : Prop :=
  ∀ (on : Bool) (s : State), exec (.snoop on) s = .next { s with snoop := on, rsp := 0x00#8 }

/-- CLAIM (R236): with a frame enqueued on an idle bus this node takes the token, makes DATA an output, loads the
first unit and arms the interrupt; otherwise it is refused with no other change. -/
def Obligations.ClaimResult : Prop :=
  ∀ s : State,
    (s.phase = .idle → s.dir.busy = .input → s.extLevel.busy = .high → s.txq = true → s.clkPrev = wire s .clock →
      exec .claim s = .next { s with
        dir := { s.dir with data := .output, busy := .output }, out := { s.out with busy := .low },
        master := true, busyLast := .low, flen := 0#8, fproc := 0#8, fovf := false, addressed := false,
        bitcnt := 0#3, shift := 0#8, txidx := 0#8, txbyte := s.txbuf.read 0, txvalid := true, txdone := false,
        tdir := .transmitting, phase := .addressPhase, ien := true, ipend := false, rsp := 0x01#8 }) ∧
    (s.phase ≠ .idle ∨ s.dir.busy = .output ∨ s.extLevel.busy = .low ∨ s.txq = false →
      exec .claim s = .next { s with rsp := 0x00#8 })

/-- TXPUSH (R237): the unit is staged at TXLEN while nothing is enqueued and there is room; otherwise refused. -/
def Obligations.TxpushResult : Prop :=
  ∀ (imm : Byte) (s : State),
    (s.txq = false → s.txlen.toNat < 32 → ∃ t, exec (.txpush imm) s = .next t ∧
      t = { s with txbuf := t.txbuf, txlen := s.txlen + 1#8, rsp := 0x01#8 } ∧
      (s.txbuf.wf 32 = true → t.txbuf.read s.txlen.toNat = imm) ∧
      ∀ a, a ≠ s.txlen.toNat → t.txbuf.read a = s.txbuf.read a) ∧
    (s.txq = true ∨ 32 ≤ s.txlen.toNat → exec (.txpush imm) s = .next { s with rsp := 0x00#8 })

/-- TXENQ and TXCLR (R238, R239). -/
def Obligations.TxenqTxclrResult : Prop :=
  ∀ s : State,
    (s.txq = false → s.txlen ≠ 0#8 → exec .txenq s = .next { s with txq := true, rsp := 0x01#8 }) ∧
    (s.txq = true ∨ s.txlen = 0#8 → exec .txenq s = .next { s with rsp := 0x00#8 }) ∧
    (s.tdir = .receiving → exec .txclr s = .next { s with
      txq := false, txlen := 0#8, txidx := 0#8, txbyte := 0#8, txvalid := false, txdone := false,
      rsp := 0x01#8 }) ∧
    (s.tdir = .transmitting → exec .txclr s = .next { s with rsp := 0x00#8 })

/-- RXLEN, RXRD and RXACK (R231, R240, R241): the delivered frame is read without side effect, an index outside it
reads 0x00, and RXACK gives the buffer back. -/
def Obligations.DeliveredFrameCommands : Prop :=
  ∀ (imm : Byte) (s : State),
    exec .rxlen s = .next { s with rsp := if s.frdy then s.dlen else 0x00#8 } ∧
    (s.frdy = true → imm.toNat < s.dlen.toNat → s.dlen.toNat ≤ 32 →
      exec (.rxrd imm) s = .next { s with rsp := s.dbuf.read imm.toNat }) ∧
    (s.frdy = false ∨ s.dlen.toNat ≤ imm.toNat → exec (.rxrd imm) s = .next { s with rsp := 0x00#8 }) ∧
    exec .rxack s = .next { s with
      frdy := false, dlen := 0#8, dobs := false, rsp := if s.frdy then 0x01#8 else 0x00#8 }

/-- RDSR returns the register as it stands, and changes nothing else; the registers whose bits are flags, as sums of
their bits, with their values at reset (R242, R36, R37, R38, R39, R47). -/
def Obligations.FlagStatusRegisters : Prop :=
  (∀ (n : BitVec 4) (s : State),
    exec (.rdsr n) s = .next { s with rsp := statusRegister Config.params s n }) ∧
  ∀ (p : Params) (s : State),
    (statusRegister p s 0#4).toNat =
      (match s.phase with | .idle => 0 | .addressPhase => 1 | .payloadPhase => 2 | .responding => 3) +
      (if s.tdir = .transmitting then 4 else 0) + 8 * s.addressed.toNat + 16 * s.master.toNat +
      32 * s.frdy.toNat + 64 * s.txq.toNat + 128 * s.snoop.toNat ∧
    (statusRegister p s 1#4).toNat =
      s.ien.toNat + 2 * s.ipend.toNat + 4 * s.fovf.toNat + 8 * s.txdone.toNat + 16 * s.txvalid.toNat +
      (if s.busyLast = .high then 32 else 0) + (if s.clkPrev = .high then 64 else 0) + 128 * s.dobs.toNat ∧
    (statusRegister p s 2#4).toNat =
      (if s.dir.clock = .output then 1 else 0) + (if s.dir.data = .output then 2 else 0) +
      (if s.dir.busy = .output then 4 else 0) + (if s.out.clock = .high then 16 else 0) +
      (if s.out.data = .high then 32 else 0) + (if s.out.busy = .high then 64 else 0) ∧
    (statusRegister p s 3#4).toNat = s.bitcnt.toNat ∧
    (statusRegister p s 11#4).toNat =
      s.elost.toNat + 2 * s.fdisc.toNat + 4 * s.fdrop.toNat + 8 * s.noreply.toNat ∧
    statusRegister p (resetBlock s) 0#4 = 0x00#8 ∧
    statusRegister p (resetBlock s) 1#4 = (if wire (resetBlock s) .clock = .high then 0x40#8 else 0x00#8) ∧
    statusRegister p (resetBlock s) 2#4 = 0x70#8 ∧
    statusRegister p (resetBlock s) 3#4 = 0x00#8 ∧ statusRegister p (resetBlock s) 11#4 = 0x00#8

/-- The registers that show one field or one parameter, with their values at reset (R40 to R46, R48 to R51). -/
def Obligations.FieldStatusRegisters : Prop :=
  ∀ (p : Params) (s : State), p.Valid →
    (statusRegister p s 4#4 = s.shift ∧ statusRegister p s 5#4 = s.flen ∧ statusRegister p s 6#4 = s.fproc ∧
      statusRegister p s 7#4 = s.dlen ∧ statusRegister p s 8#4 = s.txlen ∧ statusRegister p s 9#4 = s.txidx ∧
      statusRegister p s 10#4 = s.txbyte ∧ statusRegister p s 12#4 = p.nodeAddr) ∧
    (∀ n : BitVec 4, 4 ≤ n.toNat → n.toNat ≤ 10 → statusRegister p (resetBlock s) n = 0x00#8) ∧
    (statusRegister p s 13#4).toNat =
      p.bpu + (if p.bitOrder = .lsbFirst then 16 else 0) + (if p.clkEdge = .falling then 32 else 0) ∧
    (statusRegister p s 14#4).toNat = p.frameMax ∧ (statusRegister p s 15#4).toNat = p.txMax ∧
    statusRegister Config.params s 13#4 = 0x08#8 ∧ statusRegister Config.params s 14#4 = 0x20#8 ∧
    statusRegister Config.params s 15#4 = 0x20#8

/-! ### Invariants that every step keeps -/

/-- The invariants of R58 (items 1 to 7) are kept by every step of every instance that the premise of R58 allows, from
every state that has them; and by `step`. -/
def Obligations.StepKeepsBlockInv : Prop :=
  (∀ (p : Params) (i : Instr) (s t : State), p.Valid → BlockInv p s → drivesBusLine i = false →
    execAt p i s = .next t → BlockInv p t) ∧
  ∀ s t : State, BlockInv Config.params s →
    (∀ e rest i, s.pending = e :: rest → fetch Config.params e = .run i → drivesBusLine i = false) →
    step s = .next t → BlockInv Config.params t

/-- The state after reset has the invariants of R58, with the second sentence of item 4, its buffers are in canonical
form, and the edge detector has seen the CLOCK wire. -/
def Obligations.ResetMeetsInvariants : Prop :=
  ∀ p : Params, p.Valid → BlockInv p State.reset ∧ IdleQuiet State.reset ∧ BuffersWf p State.reset ∧
    clockSeen State.reset

/-- R58 item 4, second sentence: with no IEN command in IDLE, IDLE keeps the interrupt off and nothing half received. -/
def Obligations.StepKeepsIdleQuiet : Prop :=
  ∀ (p : Params) (i : Instr) (s t : State), IdleQuiet s → (s.phase = .idle → i ≠ .ien) →
    execAt p i s = .next t → IdleQuiet t

/-- Every step of every instance keeps the three buffers in canonical form and inside their capacity, from every state
in which they are; and so does `step`. -/
def Obligations.StepKeepsBuffersWf : Prop :=
  (∀ (p : Params) (i : Instr) (s t : State), BuffersWf p s → execAt p i s = .next t → BuffersWf p t) ∧
  ∀ s t : State, BuffersWf Config.params s → step s = .next t → BuffersWf Config.params t

/-- After every step the edge detector has seen the CLOCK wire, whoever changed it (R25, R141). -/
def Obligations.StepKeepsClockSeen : Prop :=
  (∀ (p : Params) (i : Instr) (s t : State), clockSeen s → execAt p i s = .next t → clockSeen t) ∧
  ∀ s t : State, clockSeen s → step s = .next t → clockSeen t

/-- The engine never faults by itself (R126, R269): with the invariants of R58 every step that the premise allows
answers a next state, but for a SAMPLE that is not enabled and a WRLINE to CLOCK as an input. -/
def Obligations.EngineNeverFaults : Prop :=
  ∀ (p : Params) (i : Instr) (s : State), p.Valid → BlockInv p s → drivesBusLine i = false →
    (i = .sample → s.ien = true ∧ s.ipend = true) → (∀ v, i = .wrline .clock v → s.dir.clock = .output) →
    ∃ t, execAt p i s = .next t

/-! ### Rules about the whole block -/

/-- Every transition of PHASE (R198), and the steps that make it. -/
def Obligations.PhaseTransitions : Prop :=
  ∀ (p : Params) (i : Instr) (s t : State), execAt p i s = .next t → s.phase ≠ t.phase →
    (t.phase = .idle ∧ (i = .init ∨ i = .reset ∨ i = .asm)) ∨
    (s.phase = .idle ∧ t.phase = .addressPhase ∧ (i = .asm ∨ i = .claim)) ∨
    (s.phase = .addressPhase ∧ t.phase = .payloadPhase ∧ i = .asm) ∨
    ((s.phase = .addressPhase ∨ s.phase = .payloadPhase) ∧ t.phase = .responding ∧ i = .asm ∧
      s.master = false ∧ s.txq = true ∧ t.addressed = true)

/-- Observer silence (R202), for one ASM pass: while the frame is another node's, its address unit examined or not yet,
snooping or not, ASM writes no line, does not begin a response, and sets of the DIAG bits neither ELOST nor NOREPLY; a
frame that goes on is still another node's, so the next pass is silent too. -/
def Obligations.ObserverStaysSilent : Prop :=
  ∀ (p : Params) (s t : State), s.master = false →
    ((s.phase = .payloadPhase ∧ s.addressed = false) ∨
      (s.phase = .addressPhase ∧ s.fbuf.read 0 ≠ p.nodeAddr)) →
    execAt p .asm s = .next t →
    t.dir = s.dir ∧ t.out = s.out ∧ t.tdir = (if t.phase = .idle then .receiving else s.tdir) ∧
    t.elost = s.elost ∧ t.noreply = s.noreply ∧ t.txq = s.txq ∧ t.master = false ∧ t.phase ≠ .responding ∧
    (t.phase = .payloadPhase → t.addressed = false) ∧ (t.phase = .addressPhase → t = s)

/-- The buffer stores of the block (R252): SAMPLE stores at FBUF[FLEN], TXPUSH at TXBUF[TXLEN], a delivery at DBUF
below the new DLEN; INIT and RESET clear; no other step changes a unit of any buffer. -/
def Obligations.StoresTouchOnlyTheirUnits : Prop :=
  ∀ (p : Params) (i : Instr) (s t : State), execAt p i s = .next t → i ≠ .init → i ≠ .reset →
    ∀ (b : Buffer) (a : Nat),
      ¬(i = .sample ∧ b = .fbuf ∧ a = s.flen.toNat) →
      ¬((∃ imm, i = .txpush imm) ∧ b = .txbuf ∧ a = s.txlen.toNat) →
      ¬(i = .asm ∧ s.frdy = false ∧ t.frdy = true ∧ b = .dbuf ∧ a < t.dlen.toNat) →
      (t.buf b).read a = (s.buf b).read a

/-- The delivered frame is the host's (R67, R232): while FRDY = 1 no step but RXACK, INIT and RESET changes DBUF, DLEN,
DOBS or FRDY. -/
def Obligations.DeliveredFrameIsKept : Prop :=
  ∀ (p : Params) (i : Instr) (s t : State), s.frdy = true → i ≠ .rxack → i ≠ .init → i ≠ .reset →
    execAt p i s = .next t →
    t.dbuf = s.dbuf ∧ t.dlen = s.dlen ∧ t.dobs = s.dobs ∧ t.frdy = true

/-- The response queue is the block's while a frame is enqueued (R67, R238): with TXQ = 1 no step but INIT and RESET
changes TXBUF, and TXLEN stays unless the frame is withdrawn or has been sent. -/
def Obligations.EnqueuedFrameIsKept : Prop :=
  ∀ (p : Params) (i : Instr) (s t : State), s.txq = true → i ≠ .init → i ≠ .reset → execAt p i s = .next t →
    t.txbuf = s.txbuf ∧ (t.txq = true → t.txlen = s.txlen) ∧
    (t.txq = false → i = .txclr ∨ (i = .asm ∧ s.txdone = true))

/-- The DIAG bits are sticky (R34): only INIT and RESET clear them. -/
def Obligations.DiagBitsAreSticky : Prop :=
  ∀ (p : Params) (i : Instr) (s t : State), i ≠ .init → i ≠ .reset → execAt p i s = .next t →
    (s.elost = true → t.elost = true) ∧ (s.fdisc = true → t.fdisc = true) ∧
    (s.fdrop = true → t.fdrop = true) ∧ (s.noreply = true → t.noreply = true)

/-- No rule reads a DIAG bit (R34): but for RDSR of SR11, a step from two states that differ only in DIAG bits gives
states that differ only in DIAG bits, or stops in the same way. -/
def Obligations.DiagBitsChangeNothing : Prop :=
  ∀ (p : Params) (i : Instr) (s : State), i ≠ .rdsr 11#4 →
    mapNext eraseDiag (execAt p i s) = mapNext eraseDiag (execAt p i (eraseDiag s))

/-- A run that keeps clause (a) of PROMPT never sets ELOST (R75, R268): with no IEN command from the host, no edge
pending at the start (or the interrupt off) and ELOST clear there, ELOST is clear after every step. It is not said that
no edge is lost: one that is lost while IEN = 0 (after IDIS, say) is not recorded (R268). -/
def Obligations.PromptRunNeverSetsElost : Prop :=
  ∀ (es : List Event) (s : State), isRun s es → clockSeen s → s.ipend = false ∨ s.ien = false →
    (∀ e ∈ es, e.instr ≠ .ien) → promptServed Config.params false es = true → s.elost = false →
    ∀ e ∈ es, e.after.elost = false

/-- Two masters on an ideal wire (R304): after an accepted CLAIM by one node, a CLAIM by another is refused and changes
nothing of that node but its response. -/
def Obligations.SecondClaimIsRefused : Prop :=
  ∀ (b b' : Bus) (j k : Nat) (n m : Node), j ≠ k → b.step (.node j .claim) = some b' →
    b'.nodes[j]? = some n → n.state.rsp = 0x01#8 → b'.nodes[k]? = some m →
    ∃ b'', b'.step (.node k .claim) = some b'' ∧
      b''.nodes[k]? = some { m with state := { m.state with rsp := 0x00#8 } }
end

