-- ==== Sys2Proof/Laws/Memory.lean ====
section
/-! SUPPORT. The buffers: a read after a write, and the canonical form, which every write inside the capacity keeps. -/

namespace Sys2Proof.Machine

@[simp] theorem read_nil (i : Nat) : Memory.read [] i = 0#8 := rfl

@[simp] theorem wf_nil (cap : Nat) : Memory.wf cap [] = true := rfl

/-- The canonical form, taken apart at the first entry. -/
theorem wfFrom_cons {cap low a : Nat} {b : Byte} {rest : Memory} :
    Memory.wfFrom cap low ((a, b) :: rest) = true ↔
      low ≤ a ∧ a < cap ∧ b ≠ 0#8 ∧ Memory.wfFrom cap (a + 1) rest = true := by
  simp [Memory.wfFrom, and_assoc]

/-- The canonical form allows a smaller first index. -/
theorem wfFrom_mono {cap low low' : Nat} {m : Memory} (h : low' ≤ low) (hm : Memory.wfFrom cap low m = true) :
    Memory.wfFrom cap low' m = true := by
  cases m with
  | nil => rfl
  | cons e rest =>
    obtain ⟨a, b⟩ := e
    rw [wfFrom_cons] at hm ⊢
    exact ⟨h.trans hm.1, hm.2⟩

/-- Below its first index a buffer in canonical form lists nothing. -/
theorem read_below {cap low i : Nat} {m : Memory} (hm : Memory.wfFrom cap low m = true) (h : i < low) :
    m.read i = 0#8 := by
  induction m generalizing low with
  | nil => rfl
  | cons e rest ih =>
    obtain ⟨a, b⟩ := e
    rw [wfFrom_cons] at hm
    have hne : i ≠ a := by omega
    simp only [Memory.read, if_neg hne]
    exact ih hm.2.2.2 (by omega)

/-- A write keeps the canonical form. -/
theorem wfFrom_write {cap low i : Nat} {m : Memory} (v : Byte) (hm : Memory.wfFrom cap low m = true)
    (hl : low ≤ i) (hc : i < cap) : Memory.wfFrom cap low (m.write i v) = true := by
  induction m generalizing low with
  | nil =>
    by_cases hv : v = 0#8
    · simp [Memory.write, hv, Memory.wfFrom]
    · simp [Memory.write, hv, Memory.wfFrom, hl, hc]
  | cons e rest ih =>
    obtain ⟨a, b⟩ := e
    have h := wfFrom_cons.1 hm
    simp only [Memory.write]
    split
    · split
      · exact hm
      · next hia hv => exact wfFrom_cons.2 ⟨hl, hc, hv, wfFrom_cons.2 ⟨by omega, h.2⟩⟩
    · split
      · split
        · exact wfFrom_mono (by omega) h.2.2.2
        · next hv => exact wfFrom_cons.2 ⟨h.1, h.2.1, hv, h.2.2.2⟩
      · exact wfFrom_cons.2 ⟨h.1, h.2.1, h.2.2.1, ih h.2.2.2 (by omega)⟩

/-- A write inside the capacity keeps the canonical form. -/
theorem wf_write {cap i : Nat} {m : Memory} (v : Byte) (hm : m.wf cap = true) (hc : i < cap) :
    (m.write i v).wf cap = true :=
  wfFrom_write v hm (Nat.zero_le i) hc

/-- A read at the index written gives the value written. -/
theorem read_write_sameFrom {cap low i : Nat} {m : Memory} (v : Byte) (hm : Memory.wfFrom cap low m = true) :
    (m.write i v).read i = v := by
  induction m generalizing low with
  | nil => by_cases hv : v = 0#8 <;> simp [Memory.write, hv, Memory.read]
  | cons e rest ih =>
    obtain ⟨a, b⟩ := e
    have h := wfFrom_cons.1 hm
    simp only [Memory.write]
    split
    · next hia =>
      split
      · next hv =>
        have hne : i ≠ a := by omega
        simpa [Memory.read, hne, hv] using read_below h.2.2.2 (by omega : i < a + 1)
      · simp [Memory.read]
    · split
      · next hia =>
        split
        · next hv => rw [hv, hia]; exact read_below h.2.2.2 (Nat.lt_succ_self a)
        · simp [Memory.read, hia]
      · next hia => simpa [Memory.read, hia] using ih h.2.2.2

/-- A read at the index written gives the value written. -/
theorem read_write_same {cap : Nat} {m : Memory} (i : Nat) (v : Byte) (hm : m.wf cap = true) :
    (m.write i v).read i = v :=
  read_write_sameFrom v hm

/-- A read at any other index gives what it gave before. -/
theorem read_write_other {m : Memory} {i j : Nat} (v : Byte) (hj : j ≠ i) :
    (m.write i v).read j = m.read j := by
  induction m with
  | nil => by_cases hv : v = 0#8 <;> simp [Memory.write, hv, Memory.read, hj]
  | cons e rest ih =>
    obtain ⟨a, b⟩ := e
    simp only [Memory.write]
    split
    · split
      · rfl
      · simp [Memory.read, hj]
    · split
      · next hia =>
        have hja : j ≠ a := by omega
        split <;> simp [Memory.read, hja]
      · simp only [Memory.read]
        split
        · rfl
        · exact ih

end Sys2Proof.Machine
end

