-- ==== Sys2Proof/Laws/State.lean ====
section
/-! SUPPORT. One lemma per field for each named update of State, true by rfl: no later proof unfolds an update.
And the reads of `Lines` and of the buffers after a write. -/

namespace Sys2Proof.Machine

/-! ### Lines and buffers -/

@[simp] theorem Lines.get_set_same {α : Type} (x : Lines α) (l : Line) (v : α) : (x.set l v).get l = v := by
  cases l <;> rfl

theorem Lines.get_set_other {α : Type} (x : Lines α) {l k : Line} (v : α) (h : k ≠ l) :
    (x.set l v).get k = x.get k := by
  cases l <;> cases k <;> first | rfl | exact absurd rfl h

@[simp] theorem Lines.set_get {α : Type} (x : Lines α) (l : Line) : x.set l (x.get l) = x := by
  cases l <;> rfl

@[simp] theorem Lines.get_clock {α : Type} (x : Lines α) : x.get .clock = x.clock := rfl

@[simp] theorem Lines.get_data {α : Type} (x : Lines α) : x.get .data = x.data := rfl

@[simp] theorem Lines.get_busy {α : Type} (x : Lines α) : x.get .busy = x.busy := rfl

@[simp] theorem Lines.set_clock {α : Type} (x : Lines α) (v : α) : x.set .clock v = ⟨v, x.data, x.busy⟩ := rfl

@[simp] theorem Lines.set_data {α : Type} (x : Lines α) (v : α) : x.set .data v = ⟨x.clock, v, x.busy⟩ := rfl

@[simp] theorem Lines.set_busy {α : Type} (x : Lines α) (v : α) : x.set .busy v = ⟨x.clock, x.data, v⟩ := rfl

@[simp] theorem buf_fbuf (s : State) : s.buf .fbuf = s.fbuf := rfl

@[simp] theorem buf_dbuf (s : State) : s.buf .dbuf = s.dbuf := rfl

@[simp] theorem buf_txbuf (s : State) : s.buf .txbuf = s.txbuf := rfl

@[simp] theorem setBuf_fbuf (s : State) (m : Memory) : s.setBuf .fbuf m = { s with fbuf := m } := rfl

@[simp] theorem setBuf_dbuf (s : State) (m : Memory) : s.setBuf .dbuf m = { s with dbuf := m } := rfl

@[simp] theorem setBuf_txbuf (s : State) (m : Memory) : s.setBuf .txbuf m = { s with txbuf := m } := rfl

@[simp] theorem capacity_fbuf (p : Params) : capacity p .fbuf = p.frameMax := rfl

@[simp] theorem capacity_dbuf (p : Params) : capacity p .dbuf = p.frameMax := rfl

@[simp] theorem capacity_txbuf (p : Params) : capacity p .txbuf = p.txMax := rfl

theorem buf_setBuf_same (s : State) (b : Buffer) (m : Memory) : (s.setBuf b m).buf b = m := by
  cases b <;> rfl

theorem buf_setBuf_other (s : State) {b c : Buffer} (m : Memory) (h : c ≠ b) :
    (s.setBuf b m).buf c = s.buf c := by
  cases b <;> cases c <;> first | rfl | exact absurd rfl h

/-! ### respond -/

@[simp] theorem respond_dir (s : State) (r : Byte) : (s.respond r).dir = s.dir := rfl
@[simp] theorem respond_out (s : State) (r : Byte) : (s.respond r).out = s.out := rfl
@[simp] theorem respond_ien (s : State) (r : Byte) : (s.respond r).ien = s.ien := rfl
@[simp] theorem respond_ipend (s : State) (r : Byte) : (s.respond r).ipend = s.ipend := rfl
@[simp] theorem respond_clkPrev (s : State) (r : Byte) : (s.respond r).clkPrev = s.clkPrev := rfl
@[simp] theorem respond_bitcnt (s : State) (r : Byte) : (s.respond r).bitcnt = s.bitcnt := rfl
@[simp] theorem respond_phase (s : State) (r : Byte) : (s.respond r).phase = s.phase := rfl
@[simp] theorem respond_tdir (s : State) (r : Byte) : (s.respond r).tdir = s.tdir := rfl
@[simp] theorem respond_shift (s : State) (r : Byte) : (s.respond r).shift = s.shift := rfl
@[simp] theorem respond_addressed (s : State) (r : Byte) : (s.respond r).addressed = s.addressed := rfl
@[simp] theorem respond_master (s : State) (r : Byte) : (s.respond r).master = s.master := rfl
@[simp] theorem respond_snoop (s : State) (r : Byte) : (s.respond r).snoop = s.snoop := rfl
@[simp] theorem respond_busyLast (s : State) (r : Byte) : (s.respond r).busyLast = s.busyLast := rfl
@[simp] theorem respond_fbuf (s : State) (r : Byte) : (s.respond r).fbuf = s.fbuf := rfl
@[simp] theorem respond_flen (s : State) (r : Byte) : (s.respond r).flen = s.flen := rfl
@[simp] theorem respond_fproc (s : State) (r : Byte) : (s.respond r).fproc = s.fproc := rfl
@[simp] theorem respond_fovf (s : State) (r : Byte) : (s.respond r).fovf = s.fovf := rfl
@[simp] theorem respond_dbuf (s : State) (r : Byte) : (s.respond r).dbuf = s.dbuf := rfl
@[simp] theorem respond_dlen (s : State) (r : Byte) : (s.respond r).dlen = s.dlen := rfl
@[simp] theorem respond_dobs (s : State) (r : Byte) : (s.respond r).dobs = s.dobs := rfl
@[simp] theorem respond_frdy (s : State) (r : Byte) : (s.respond r).frdy = s.frdy := rfl
@[simp] theorem respond_txbuf (s : State) (r : Byte) : (s.respond r).txbuf = s.txbuf := rfl
@[simp] theorem respond_txlen (s : State) (r : Byte) : (s.respond r).txlen = s.txlen := rfl
@[simp] theorem respond_txq (s : State) (r : Byte) : (s.respond r).txq = s.txq := rfl
@[simp] theorem respond_txidx (s : State) (r : Byte) : (s.respond r).txidx = s.txidx := rfl
@[simp] theorem respond_txbyte (s : State) (r : Byte) : (s.respond r).txbyte = s.txbyte := rfl
@[simp] theorem respond_txvalid (s : State) (r : Byte) : (s.respond r).txvalid = s.txvalid := rfl
@[simp] theorem respond_txdone (s : State) (r : Byte) : (s.respond r).txdone = s.txdone := rfl
@[simp] theorem respond_elost (s : State) (r : Byte) : (s.respond r).elost = s.elost := rfl
@[simp] theorem respond_fdisc (s : State) (r : Byte) : (s.respond r).fdisc = s.fdisc := rfl
@[simp] theorem respond_fdrop (s : State) (r : Byte) : (s.respond r).fdrop = s.fdrop := rfl
@[simp] theorem respond_noreply (s : State) (r : Byte) : (s.respond r).noreply = s.noreply := rfl
@[simp] theorem respond_extLevel (s : State) (r : Byte) : (s.respond r).extLevel = s.extLevel := rfl
@[simp] theorem respond_rsp (s : State) (r : Byte) : (s.respond r).rsp = r := rfl
@[simp] theorem respond_pending (s : State) (r : Byte) : (s.respond r).pending = s.pending := rfl

/-! ### enable -/

@[simp] theorem enable_dir (s : State) : (enable s).dir = s.dir := rfl
@[simp] theorem enable_out (s : State) : (enable s).out = s.out := rfl
@[simp] theorem enable_ien (s : State) : (enable s).ien = true := rfl
@[simp] theorem enable_ipend (s : State) : (enable s).ipend = s.ipend := rfl
@[simp] theorem enable_clkPrev (s : State) : (enable s).clkPrev = s.clkPrev := rfl
@[simp] theorem enable_bitcnt (s : State) : (enable s).bitcnt = s.bitcnt := rfl
@[simp] theorem enable_phase (s : State) : (enable s).phase = s.phase := rfl
@[simp] theorem enable_tdir (s : State) : (enable s).tdir = s.tdir := rfl
@[simp] theorem enable_shift (s : State) : (enable s).shift = s.shift := rfl
@[simp] theorem enable_addressed (s : State) : (enable s).addressed = s.addressed := rfl
@[simp] theorem enable_master (s : State) : (enable s).master = s.master := rfl
@[simp] theorem enable_snoop (s : State) : (enable s).snoop = s.snoop := rfl
@[simp] theorem enable_busyLast (s : State) : (enable s).busyLast = s.busyLast := rfl
@[simp] theorem enable_fbuf (s : State) : (enable s).fbuf = s.fbuf := rfl
@[simp] theorem enable_flen (s : State) : (enable s).flen = s.flen := rfl
@[simp] theorem enable_fproc (s : State) : (enable s).fproc = s.fproc := rfl
@[simp] theorem enable_fovf (s : State) : (enable s).fovf = s.fovf := rfl
@[simp] theorem enable_dbuf (s : State) : (enable s).dbuf = s.dbuf := rfl
@[simp] theorem enable_dlen (s : State) : (enable s).dlen = s.dlen := rfl
@[simp] theorem enable_dobs (s : State) : (enable s).dobs = s.dobs := rfl
@[simp] theorem enable_frdy (s : State) : (enable s).frdy = s.frdy := rfl
@[simp] theorem enable_txbuf (s : State) : (enable s).txbuf = s.txbuf := rfl
@[simp] theorem enable_txlen (s : State) : (enable s).txlen = s.txlen := rfl
@[simp] theorem enable_txq (s : State) : (enable s).txq = s.txq := rfl
@[simp] theorem enable_txidx (s : State) : (enable s).txidx = s.txidx := rfl
@[simp] theorem enable_txbyte (s : State) : (enable s).txbyte = s.txbyte := rfl
@[simp] theorem enable_txvalid (s : State) : (enable s).txvalid = s.txvalid := rfl
@[simp] theorem enable_txdone (s : State) : (enable s).txdone = s.txdone := rfl
@[simp] theorem enable_elost (s : State) : (enable s).elost = s.elost := rfl
@[simp] theorem enable_fdisc (s : State) : (enable s).fdisc = s.fdisc := rfl
@[simp] theorem enable_fdrop (s : State) : (enable s).fdrop = s.fdrop := rfl
@[simp] theorem enable_noreply (s : State) : (enable s).noreply = s.noreply := rfl
@[simp] theorem enable_extLevel (s : State) : (enable s).extLevel = s.extLevel := rfl
@[simp] theorem enable_rsp (s : State) : (enable s).rsp = s.rsp := rfl
@[simp] theorem enable_pending (s : State) : (enable s).pending = s.pending := rfl

/-! ### disable -/

@[simp] theorem disable_dir (s : State) : (disable s).dir = s.dir := rfl
@[simp] theorem disable_out (s : State) : (disable s).out = s.out := rfl
@[simp] theorem disable_ien (s : State) : (disable s).ien = false := rfl
@[simp] theorem disable_ipend (s : State) : (disable s).ipend = s.ipend := rfl
@[simp] theorem disable_clkPrev (s : State) : (disable s).clkPrev = s.clkPrev := rfl
@[simp] theorem disable_bitcnt (s : State) : (disable s).bitcnt = s.bitcnt := rfl
@[simp] theorem disable_phase (s : State) : (disable s).phase = s.phase := rfl
@[simp] theorem disable_tdir (s : State) : (disable s).tdir = s.tdir := rfl
@[simp] theorem disable_shift (s : State) : (disable s).shift = s.shift := rfl
@[simp] theorem disable_addressed (s : State) : (disable s).addressed = s.addressed := rfl
@[simp] theorem disable_master (s : State) : (disable s).master = s.master := rfl
@[simp] theorem disable_snoop (s : State) : (disable s).snoop = s.snoop := rfl
@[simp] theorem disable_busyLast (s : State) : (disable s).busyLast = s.busyLast := rfl
@[simp] theorem disable_fbuf (s : State) : (disable s).fbuf = s.fbuf := rfl
@[simp] theorem disable_flen (s : State) : (disable s).flen = s.flen := rfl
@[simp] theorem disable_fproc (s : State) : (disable s).fproc = s.fproc := rfl
@[simp] theorem disable_fovf (s : State) : (disable s).fovf = s.fovf := rfl
@[simp] theorem disable_dbuf (s : State) : (disable s).dbuf = s.dbuf := rfl
@[simp] theorem disable_dlen (s : State) : (disable s).dlen = s.dlen := rfl
@[simp] theorem disable_dobs (s : State) : (disable s).dobs = s.dobs := rfl
@[simp] theorem disable_frdy (s : State) : (disable s).frdy = s.frdy := rfl
@[simp] theorem disable_txbuf (s : State) : (disable s).txbuf = s.txbuf := rfl
@[simp] theorem disable_txlen (s : State) : (disable s).txlen = s.txlen := rfl
@[simp] theorem disable_txq (s : State) : (disable s).txq = s.txq := rfl
@[simp] theorem disable_txidx (s : State) : (disable s).txidx = s.txidx := rfl
@[simp] theorem disable_txbyte (s : State) : (disable s).txbyte = s.txbyte := rfl
@[simp] theorem disable_txvalid (s : State) : (disable s).txvalid = s.txvalid := rfl
@[simp] theorem disable_txdone (s : State) : (disable s).txdone = s.txdone := rfl
@[simp] theorem disable_elost (s : State) : (disable s).elost = s.elost := rfl
@[simp] theorem disable_fdisc (s : State) : (disable s).fdisc = s.fdisc := rfl
@[simp] theorem disable_fdrop (s : State) : (disable s).fdrop = s.fdrop := rfl
@[simp] theorem disable_noreply (s : State) : (disable s).noreply = s.noreply := rfl
@[simp] theorem disable_extLevel (s : State) : (disable s).extLevel = s.extLevel := rfl
@[simp] theorem disable_rsp (s : State) : (disable s).rsp = s.rsp := rfl
@[simp] theorem disable_pending (s : State) : (disable s).pending = s.pending := rfl

/-! ### clearPending -/

@[simp] theorem clearPending_dir (s : State) : (clearPending s).dir = s.dir := rfl
@[simp] theorem clearPending_out (s : State) : (clearPending s).out = s.out := rfl
@[simp] theorem clearPending_ien (s : State) : (clearPending s).ien = s.ien := rfl
@[simp] theorem clearPending_ipend (s : State) : (clearPending s).ipend = false := rfl
@[simp] theorem clearPending_clkPrev (s : State) : (clearPending s).clkPrev = s.clkPrev := rfl
@[simp] theorem clearPending_bitcnt (s : State) : (clearPending s).bitcnt = s.bitcnt := rfl
@[simp] theorem clearPending_phase (s : State) : (clearPending s).phase = s.phase := rfl
@[simp] theorem clearPending_tdir (s : State) : (clearPending s).tdir = s.tdir := rfl
@[simp] theorem clearPending_shift (s : State) : (clearPending s).shift = s.shift := rfl
@[simp] theorem clearPending_addressed (s : State) : (clearPending s).addressed = s.addressed := rfl
@[simp] theorem clearPending_master (s : State) : (clearPending s).master = s.master := rfl
@[simp] theorem clearPending_snoop (s : State) : (clearPending s).snoop = s.snoop := rfl
@[simp] theorem clearPending_busyLast (s : State) : (clearPending s).busyLast = s.busyLast := rfl
@[simp] theorem clearPending_fbuf (s : State) : (clearPending s).fbuf = s.fbuf := rfl
@[simp] theorem clearPending_flen (s : State) : (clearPending s).flen = s.flen := rfl
@[simp] theorem clearPending_fproc (s : State) : (clearPending s).fproc = s.fproc := rfl
@[simp] theorem clearPending_fovf (s : State) : (clearPending s).fovf = s.fovf := rfl
@[simp] theorem clearPending_dbuf (s : State) : (clearPending s).dbuf = s.dbuf := rfl
@[simp] theorem clearPending_dlen (s : State) : (clearPending s).dlen = s.dlen := rfl
@[simp] theorem clearPending_dobs (s : State) : (clearPending s).dobs = s.dobs := rfl
@[simp] theorem clearPending_frdy (s : State) : (clearPending s).frdy = s.frdy := rfl
@[simp] theorem clearPending_txbuf (s : State) : (clearPending s).txbuf = s.txbuf := rfl
@[simp] theorem clearPending_txlen (s : State) : (clearPending s).txlen = s.txlen := rfl
@[simp] theorem clearPending_txq (s : State) : (clearPending s).txq = s.txq := rfl
@[simp] theorem clearPending_txidx (s : State) : (clearPending s).txidx = s.txidx := rfl
@[simp] theorem clearPending_txbyte (s : State) : (clearPending s).txbyte = s.txbyte := rfl
@[simp] theorem clearPending_txvalid (s : State) : (clearPending s).txvalid = s.txvalid := rfl
@[simp] theorem clearPending_txdone (s : State) : (clearPending s).txdone = s.txdone := rfl
@[simp] theorem clearPending_elost (s : State) : (clearPending s).elost = s.elost := rfl
@[simp] theorem clearPending_fdisc (s : State) : (clearPending s).fdisc = s.fdisc := rfl
@[simp] theorem clearPending_fdrop (s : State) : (clearPending s).fdrop = s.fdrop := rfl
@[simp] theorem clearPending_noreply (s : State) : (clearPending s).noreply = s.noreply := rfl
@[simp] theorem clearPending_extLevel (s : State) : (clearPending s).extLevel = s.extLevel := rfl
@[simp] theorem clearPending_rsp (s : State) : (clearPending s).rsp = s.rsp := rfl
@[simp] theorem clearPending_pending (s : State) : (clearPending s).pending = s.pending := rfl

/-! ### takeInterrupt -/

@[simp] theorem takeInterrupt_dir (s : State) : (takeInterrupt s).dir = s.dir := rfl
@[simp] theorem takeInterrupt_out (s : State) : (takeInterrupt s).out = s.out := rfl
@[simp] theorem takeInterrupt_ien (s : State) : (takeInterrupt s).ien = s.ien := rfl
@[simp] theorem takeInterrupt_ipend (s : State) : (takeInterrupt s).ipend = false := rfl
@[simp] theorem takeInterrupt_clkPrev (s : State) : (takeInterrupt s).clkPrev = s.clkPrev := rfl
@[simp] theorem takeInterrupt_bitcnt (s : State) : (takeInterrupt s).bitcnt = s.bitcnt := rfl
@[simp] theorem takeInterrupt_phase (s : State) : (takeInterrupt s).phase = s.phase := rfl
@[simp] theorem takeInterrupt_tdir (s : State) : (takeInterrupt s).tdir = s.tdir := rfl
@[simp] theorem takeInterrupt_shift (s : State) : (takeInterrupt s).shift = s.shift := rfl
@[simp] theorem takeInterrupt_addressed (s : State) : (takeInterrupt s).addressed = s.addressed := rfl
@[simp] theorem takeInterrupt_master (s : State) : (takeInterrupt s).master = s.master := rfl
@[simp] theorem takeInterrupt_snoop (s : State) : (takeInterrupt s).snoop = s.snoop := rfl
@[simp] theorem takeInterrupt_busyLast (s : State) : (takeInterrupt s).busyLast = s.busyLast := rfl
@[simp] theorem takeInterrupt_fbuf (s : State) : (takeInterrupt s).fbuf = s.fbuf := rfl
@[simp] theorem takeInterrupt_flen (s : State) : (takeInterrupt s).flen = s.flen := rfl
@[simp] theorem takeInterrupt_fproc (s : State) : (takeInterrupt s).fproc = s.fproc := rfl
@[simp] theorem takeInterrupt_fovf (s : State) : (takeInterrupt s).fovf = s.fovf := rfl
@[simp] theorem takeInterrupt_dbuf (s : State) : (takeInterrupt s).dbuf = s.dbuf := rfl
@[simp] theorem takeInterrupt_dlen (s : State) : (takeInterrupt s).dlen = s.dlen := rfl
@[simp] theorem takeInterrupt_dobs (s : State) : (takeInterrupt s).dobs = s.dobs := rfl
@[simp] theorem takeInterrupt_frdy (s : State) : (takeInterrupt s).frdy = s.frdy := rfl
@[simp] theorem takeInterrupt_txbuf (s : State) : (takeInterrupt s).txbuf = s.txbuf := rfl
@[simp] theorem takeInterrupt_txlen (s : State) : (takeInterrupt s).txlen = s.txlen := rfl
@[simp] theorem takeInterrupt_txq (s : State) : (takeInterrupt s).txq = s.txq := rfl
@[simp] theorem takeInterrupt_txidx (s : State) : (takeInterrupt s).txidx = s.txidx := rfl
@[simp] theorem takeInterrupt_txbyte (s : State) : (takeInterrupt s).txbyte = s.txbyte := rfl
@[simp] theorem takeInterrupt_txvalid (s : State) : (takeInterrupt s).txvalid = s.txvalid := rfl
@[simp] theorem takeInterrupt_txdone (s : State) : (takeInterrupt s).txdone = s.txdone := rfl
@[simp] theorem takeInterrupt_elost (s : State) : (takeInterrupt s).elost = s.elost := rfl
@[simp] theorem takeInterrupt_fdisc (s : State) : (takeInterrupt s).fdisc = s.fdisc := rfl
@[simp] theorem takeInterrupt_fdrop (s : State) : (takeInterrupt s).fdrop = s.fdrop := rfl
@[simp] theorem takeInterrupt_noreply (s : State) : (takeInterrupt s).noreply = s.noreply := rfl
@[simp] theorem takeInterrupt_extLevel (s : State) : (takeInterrupt s).extLevel = s.extLevel := rfl
@[simp] theorem takeInterrupt_rsp (s : State) : (takeInterrupt s).rsp = s.rsp := rfl
@[simp] theorem takeInterrupt_pending (s : State) : (takeInterrupt s).pending = s.pending := rfl

/-! ### toIdle -/

@[simp] theorem toIdle_dir (s : State) : (toIdle s).dir = s.dir := rfl
@[simp] theorem toIdle_out (s : State) : (toIdle s).out = s.out := rfl
@[simp] theorem toIdle_ien (s : State) : (toIdle s).ien = false := rfl
@[simp] theorem toIdle_ipend (s : State) : (toIdle s).ipend = s.ipend := rfl
@[simp] theorem toIdle_clkPrev (s : State) : (toIdle s).clkPrev = s.clkPrev := rfl
@[simp] theorem toIdle_bitcnt (s : State) : (toIdle s).bitcnt = 0#3 := rfl
@[simp] theorem toIdle_phase (s : State) : (toIdle s).phase = .idle := rfl
@[simp] theorem toIdle_tdir (s : State) : (toIdle s).tdir = .receiving := rfl
@[simp] theorem toIdle_shift (s : State) : (toIdle s).shift = 0#8 := rfl
@[simp] theorem toIdle_addressed (s : State) : (toIdle s).addressed = false := rfl
@[simp] theorem toIdle_master (s : State) : (toIdle s).master = s.master := rfl
@[simp] theorem toIdle_snoop (s : State) : (toIdle s).snoop = s.snoop := rfl
@[simp] theorem toIdle_busyLast (s : State) : (toIdle s).busyLast = s.busyLast := rfl
@[simp] theorem toIdle_fbuf (s : State) : (toIdle s).fbuf = s.fbuf := rfl
@[simp] theorem toIdle_flen (s : State) : (toIdle s).flen = 0#8 := rfl
@[simp] theorem toIdle_fproc (s : State) : (toIdle s).fproc = 0#8 := rfl
@[simp] theorem toIdle_fovf (s : State) : (toIdle s).fovf = false := rfl
@[simp] theorem toIdle_dbuf (s : State) : (toIdle s).dbuf = s.dbuf := rfl
@[simp] theorem toIdle_dlen (s : State) : (toIdle s).dlen = s.dlen := rfl
@[simp] theorem toIdle_dobs (s : State) : (toIdle s).dobs = s.dobs := rfl
@[simp] theorem toIdle_frdy (s : State) : (toIdle s).frdy = s.frdy := rfl
@[simp] theorem toIdle_txbuf (s : State) : (toIdle s).txbuf = s.txbuf := rfl
@[simp] theorem toIdle_txlen (s : State) : (toIdle s).txlen = s.txlen := rfl
@[simp] theorem toIdle_txq (s : State) : (toIdle s).txq = s.txq := rfl
@[simp] theorem toIdle_txidx (s : State) : (toIdle s).txidx = s.txidx := rfl
@[simp] theorem toIdle_txbyte (s : State) : (toIdle s).txbyte = s.txbyte := rfl
@[simp] theorem toIdle_txvalid (s : State) : (toIdle s).txvalid = s.txvalid := rfl
@[simp] theorem toIdle_txdone (s : State) : (toIdle s).txdone = s.txdone := rfl
@[simp] theorem toIdle_elost (s : State) : (toIdle s).elost = s.elost := rfl
@[simp] theorem toIdle_fdisc (s : State) : (toIdle s).fdisc = s.fdisc := rfl
@[simp] theorem toIdle_fdrop (s : State) : (toIdle s).fdrop = s.fdrop := rfl
@[simp] theorem toIdle_noreply (s : State) : (toIdle s).noreply = s.noreply := rfl
@[simp] theorem toIdle_extLevel (s : State) : (toIdle s).extLevel = s.extLevel := rfl
@[simp] theorem toIdle_rsp (s : State) : (toIdle s).rsp = s.rsp := rfl
@[simp] theorem toIdle_pending (s : State) : (toIdle s).pending = s.pending := rfl

/-! ### startFrame -/

@[simp] theorem startFrame_dir (s : State) : (startFrame s).dir = s.dir := rfl
@[simp] theorem startFrame_out (s : State) : (startFrame s).out = s.out := rfl
@[simp] theorem startFrame_ien (s : State) : (startFrame s).ien = true := rfl
@[simp] theorem startFrame_ipend (s : State) : (startFrame s).ipend = false := rfl
@[simp] theorem startFrame_clkPrev (s : State) : (startFrame s).clkPrev = s.clkPrev := rfl
@[simp] theorem startFrame_bitcnt (s : State) : (startFrame s).bitcnt = 0#3 := rfl
@[simp] theorem startFrame_phase (s : State) : (startFrame s).phase = .addressPhase := rfl
@[simp] theorem startFrame_tdir (s : State) : (startFrame s).tdir = .receiving := rfl
@[simp] theorem startFrame_shift (s : State) : (startFrame s).shift = 0#8 := rfl
@[simp] theorem startFrame_addressed (s : State) : (startFrame s).addressed = false := rfl
@[simp] theorem startFrame_master (s : State) : (startFrame s).master = s.master := rfl
@[simp] theorem startFrame_snoop (s : State) : (startFrame s).snoop = s.snoop := rfl
@[simp] theorem startFrame_busyLast (s : State) : (startFrame s).busyLast = s.busyLast := rfl
@[simp] theorem startFrame_fbuf (s : State) : (startFrame s).fbuf = s.fbuf := rfl
@[simp] theorem startFrame_flen (s : State) : (startFrame s).flen = 0#8 := rfl
@[simp] theorem startFrame_fproc (s : State) : (startFrame s).fproc = 0#8 := rfl
@[simp] theorem startFrame_fovf (s : State) : (startFrame s).fovf = false := rfl
@[simp] theorem startFrame_dbuf (s : State) : (startFrame s).dbuf = s.dbuf := rfl
@[simp] theorem startFrame_dlen (s : State) : (startFrame s).dlen = s.dlen := rfl
@[simp] theorem startFrame_dobs (s : State) : (startFrame s).dobs = s.dobs := rfl
@[simp] theorem startFrame_frdy (s : State) : (startFrame s).frdy = s.frdy := rfl
@[simp] theorem startFrame_txbuf (s : State) : (startFrame s).txbuf = s.txbuf := rfl
@[simp] theorem startFrame_txlen (s : State) : (startFrame s).txlen = s.txlen := rfl
@[simp] theorem startFrame_txq (s : State) : (startFrame s).txq = s.txq := rfl
@[simp] theorem startFrame_txidx (s : State) : (startFrame s).txidx = s.txidx := rfl
@[simp] theorem startFrame_txbyte (s : State) : (startFrame s).txbyte = s.txbyte := rfl
@[simp] theorem startFrame_txvalid (s : State) : (startFrame s).txvalid = s.txvalid := rfl
@[simp] theorem startFrame_txdone (s : State) : (startFrame s).txdone = s.txdone := rfl
@[simp] theorem startFrame_elost (s : State) : (startFrame s).elost = s.elost := rfl
@[simp] theorem startFrame_fdisc (s : State) : (startFrame s).fdisc = s.fdisc := rfl
@[simp] theorem startFrame_fdrop (s : State) : (startFrame s).fdrop = s.fdrop := rfl
@[simp] theorem startFrame_noreply (s : State) : (startFrame s).noreply = s.noreply := rfl
@[simp] theorem startFrame_extLevel (s : State) : (startFrame s).extLevel = s.extLevel := rfl
@[simp] theorem startFrame_rsp (s : State) : (startFrame s).rsp = s.rsp := rfl
@[simp] theorem startFrame_pending (s : State) : (startFrame s).pending = s.pending := rfl

/-! ### discard -/

@[simp] theorem discard_dir (s : State) : (discard s).dir = s.dir := rfl
@[simp] theorem discard_out (s : State) : (discard s).out = s.out := rfl
@[simp] theorem discard_ien (s : State) : (discard s).ien = false := rfl
@[simp] theorem discard_ipend (s : State) : (discard s).ipend = s.ipend := rfl
@[simp] theorem discard_clkPrev (s : State) : (discard s).clkPrev = s.clkPrev := rfl
@[simp] theorem discard_bitcnt (s : State) : (discard s).bitcnt = 0#3 := rfl
@[simp] theorem discard_phase (s : State) : (discard s).phase = .idle := rfl
@[simp] theorem discard_tdir (s : State) : (discard s).tdir = .receiving := rfl
@[simp] theorem discard_shift (s : State) : (discard s).shift = 0#8 := rfl
@[simp] theorem discard_addressed (s : State) : (discard s).addressed = false := rfl
@[simp] theorem discard_master (s : State) : (discard s).master = s.master := rfl
@[simp] theorem discard_snoop (s : State) : (discard s).snoop = s.snoop := rfl
@[simp] theorem discard_busyLast (s : State) : (discard s).busyLast = s.busyLast := rfl
@[simp] theorem discard_fbuf (s : State) : (discard s).fbuf = s.fbuf := rfl
@[simp] theorem discard_flen (s : State) : (discard s).flen = 0#8 := rfl
@[simp] theorem discard_fproc (s : State) : (discard s).fproc = 0#8 := rfl
@[simp] theorem discard_fovf (s : State) : (discard s).fovf = false := rfl
@[simp] theorem discard_dbuf (s : State) : (discard s).dbuf = s.dbuf := rfl
@[simp] theorem discard_dlen (s : State) : (discard s).dlen = s.dlen := rfl
@[simp] theorem discard_dobs (s : State) : (discard s).dobs = s.dobs := rfl
@[simp] theorem discard_frdy (s : State) : (discard s).frdy = s.frdy := rfl
@[simp] theorem discard_txbuf (s : State) : (discard s).txbuf = s.txbuf := rfl
@[simp] theorem discard_txlen (s : State) : (discard s).txlen = s.txlen := rfl
@[simp] theorem discard_txq (s : State) : (discard s).txq = s.txq := rfl
@[simp] theorem discard_txidx (s : State) : (discard s).txidx = s.txidx := rfl
@[simp] theorem discard_txbyte (s : State) : (discard s).txbyte = s.txbyte := rfl
@[simp] theorem discard_txvalid (s : State) : (discard s).txvalid = s.txvalid := rfl
@[simp] theorem discard_txdone (s : State) : (discard s).txdone = s.txdone := rfl
@[simp] theorem discard_elost (s : State) : (discard s).elost = s.elost := rfl
@[simp] theorem discard_fdisc (s : State) : (discard s).fdisc = true := rfl
@[simp] theorem discard_fdrop (s : State) : (discard s).fdrop = s.fdrop := rfl
@[simp] theorem discard_noreply (s : State) : (discard s).noreply = s.noreply := rfl
@[simp] theorem discard_extLevel (s : State) : (discard s).extLevel = s.extLevel := rfl
@[simp] theorem discard_rsp (s : State) : (discard s).rsp = s.rsp := rfl
@[simp] theorem discard_pending (s : State) : (discard s).pending = s.pending := rfl

end Sys2Proof.Machine
end

