-- ==== Sys2Proof/Laws/Ops.lean ====
section
/-! SUPPORT. For each shared operation of Machine/Ops.lean one lemma that says once everything it can do, and the
fields it leaves alone. -/

namespace Sys2Proof.Machine

/-! ### Outcomes -/

@[simp] theorem finish_ok (s : State) : finish (.ok s) = .next s := rfl

@[simp] theorem finish_error (f : Fault) : finish (.error f) = .fault f := rfl

/-- `finish` answers a next state exactly where its argument does. -/
theorem finish_next {r : Except Fault State} {t : State} : finish r = .next t ↔ r = .ok t := by
  cases r <;> simp [finish]

/-- `finish` faults exactly where its argument does. -/
theorem finish_fault {r : Except Fault State} {f : Fault} : finish r = .fault f ↔ r = .error f := by
  cases r <;> simp [finish]

/-- A sequence answers where each of its parts does. -/
theorem bind_ok {α β : Type} {x : Except Fault α} {k : α → Except Fault β} {b : β} :
    (x >>= k) = .ok b ↔ ∃ a, x = .ok a ∧ k a = .ok b := by
  cases x with
  | ok a => exact ⟨fun h => ⟨a, rfl, h⟩, fun ⟨_, h, hb⟩ => by cases h; exact hb⟩
  | error f => exact ⟨fun h => (nomatch h), fun ⟨_, h, _⟩ => (nomatch h)⟩

/-- What a sequence that ends in an answer answers. -/
theorem answers {α : Type} {a b : α} : (Except.ok a : Except Fault α) = .ok b ↔ b = a :=
  ⟨fun h => by cases h; rfl, fun h => by rw [h]⟩

/-! ### The buffers -/

/-- MemRead answers the unit exactly inside the capacity. -/
theorem memRead_ok {p : Params} {b : Buffer} {i : Nat} {s : State} {u : Byte} :
    memRead p b i s = .ok u ↔ i < capacity p b ∧ u = (s.buf b).read i := by
  unfold memRead
  split <;> simp_all [eq_comm]

/-- MemWrite answers exactly inside the capacity. -/
theorem memWrite_ok {p : Params} {b : Buffer} {i : Nat} {v : Byte} {s t : State} :
    memWrite p b i v s = .ok t ↔ i < capacity p b ∧ t = s.setBuf b ((s.buf b).write i v) := by
  unfold memWrite
  split <;> simp_all [eq_comm]

/-- The first units of a buffer can be read exactly up to the capacity. -/
theorem memPrefix_ok {p : Params} {b : Buffer} {n : Nat} {s : State} {us : List Byte} :
    memPrefix p b n s = .ok us ↔ n ≤ capacity p b ∧ us = (List.range n).map (s.buf b).read := by
  unfold memPrefix
  split <;> simp_all [eq_comm]

/-! ### The wire -/

/-- The level of an INPUT line on the wire is the environment's (R121, R125). -/
theorem wire_input {s : State} {l : Line} (h : s.dir.get l = .input) : wire s l = s.extLevel.get l := by
  cases he : s.extLevel.get l <;> simp [wire, pull, h, he]

/-- A released OUTPUT line shows the environment's level (R120, R121). -/
theorem wire_released {s : State} {l : Line} (h : s.out.get l = .high) : wire s l = s.extLevel.get l := by
  cases he : s.extLevel.get l <;> simp [wire, pull, h, he]

/-- `read` of an INPUT line (R125). -/
theorem readLine_input {s : State} {l : Line} (h : s.dir.get l = .input) :
    readLine s l = s.extLevel.get l := by
  simp only [readLine, h]; exact wire_input h

/-- `read` of an OUTPUT line (R125). -/
theorem readLine_output {s : State} {l : Line} (h : s.dir.get l = .output) : readLine s l = s.out.get l := by
  simp only [readLine, h]

/-! ### The edge detector -/

/-- The edge that `edge_detect()` finds in a state (R141). -/
def edgeFound (p : Params) (s : State) : Bool :=
  activeEdge p.clkEdge s.clkPrev (wire s .clock)

/-- Everything that `edge_detect()` does (R141). -/
theorem edgeDetect_eq (p : Params) (s : State) :
    edgeDetect p s = { s with
      ipend := s.ipend || edgeFound p s,
      elost := s.elost || (edgeFound p s && s.ipend && s.ien),
      clkPrev := wire s .clock } := by
  unfold edgeDetect edgeFound
  cases ha : activeEdge p.clkEdge s.clkPrev (wire s .clock) <;> cases s.ipend <;> simp [ha]

/-- No edge without a change of the CLOCK wire. -/
theorem activeEdge_same (e : ClkEdge) (c : Level) : activeEdge e c c = false := by
  cases e <;> cases c <;> rfl

/-- `edge_detect()` does nothing where the CLOCK wire is as it was (R123, R141). -/
theorem edgeDetect_same {p : Params} {s : State} (h : s.clkPrev = wire s .clock) : edgeDetect p s = s := by
  rw [edgeDetect_eq, edgeFound, h, activeEdge_same]
  simp [← h]

@[simp] theorem edgeDetect_dir (p : Params) (s : State) : (edgeDetect p s).dir = s.dir := by
  rw [edgeDetect_eq]

@[simp] theorem edgeDetect_out (p : Params) (s : State) : (edgeDetect p s).out = s.out := by
  rw [edgeDetect_eq]

@[simp] theorem edgeDetect_ien (p : Params) (s : State) : (edgeDetect p s).ien = s.ien := by
  rw [edgeDetect_eq]

@[simp] theorem edgeDetect_bitcnt (p : Params) (s : State) : (edgeDetect p s).bitcnt = s.bitcnt := by
  rw [edgeDetect_eq]

@[simp] theorem edgeDetect_phase (p : Params) (s : State) : (edgeDetect p s).phase = s.phase := by
  rw [edgeDetect_eq]

@[simp] theorem edgeDetect_tdir (p : Params) (s : State) : (edgeDetect p s).tdir = s.tdir := by
  rw [edgeDetect_eq]

@[simp] theorem edgeDetect_shift (p : Params) (s : State) : (edgeDetect p s).shift = s.shift := by
  rw [edgeDetect_eq]

@[simp] theorem edgeDetect_addressed (p : Params) (s : State) : (edgeDetect p s).addressed = s.addressed := by
  rw [edgeDetect_eq]

@[simp] theorem edgeDetect_master (p : Params) (s : State) : (edgeDetect p s).master = s.master := by
  rw [edgeDetect_eq]

@[simp] theorem edgeDetect_snoop (p : Params) (s : State) : (edgeDetect p s).snoop = s.snoop := by
  rw [edgeDetect_eq]

@[simp] theorem edgeDetect_busyLast (p : Params) (s : State) : (edgeDetect p s).busyLast = s.busyLast := by
  rw [edgeDetect_eq]

@[simp] theorem edgeDetect_fbuf (p : Params) (s : State) : (edgeDetect p s).fbuf = s.fbuf := by
  rw [edgeDetect_eq]

@[simp] theorem edgeDetect_flen (p : Params) (s : State) : (edgeDetect p s).flen = s.flen := by
  rw [edgeDetect_eq]

@[simp] theorem edgeDetect_fproc (p : Params) (s : State) : (edgeDetect p s).fproc = s.fproc := by
  rw [edgeDetect_eq]

@[simp] theorem edgeDetect_fovf (p : Params) (s : State) : (edgeDetect p s).fovf = s.fovf := by
  rw [edgeDetect_eq]

@[simp] theorem edgeDetect_dbuf (p : Params) (s : State) : (edgeDetect p s).dbuf = s.dbuf := by
  rw [edgeDetect_eq]

@[simp] theorem edgeDetect_dlen (p : Params) (s : State) : (edgeDetect p s).dlen = s.dlen := by
  rw [edgeDetect_eq]

@[simp] theorem edgeDetect_dobs (p : Params) (s : State) : (edgeDetect p s).dobs = s.dobs := by
  rw [edgeDetect_eq]

@[simp] theorem edgeDetect_frdy (p : Params) (s : State) : (edgeDetect p s).frdy = s.frdy := by
  rw [edgeDetect_eq]

@[simp] theorem edgeDetect_txbuf (p : Params) (s : State) : (edgeDetect p s).txbuf = s.txbuf := by
  rw [edgeDetect_eq]

@[simp] theorem edgeDetect_txlen (p : Params) (s : State) : (edgeDetect p s).txlen = s.txlen := by
  rw [edgeDetect_eq]

@[simp] theorem edgeDetect_txq (p : Params) (s : State) : (edgeDetect p s).txq = s.txq := by
  rw [edgeDetect_eq]

@[simp] theorem edgeDetect_txidx (p : Params) (s : State) : (edgeDetect p s).txidx = s.txidx := by
  rw [edgeDetect_eq]

@[simp] theorem edgeDetect_txbyte (p : Params) (s : State) : (edgeDetect p s).txbyte = s.txbyte := by
  rw [edgeDetect_eq]

@[simp] theorem edgeDetect_txvalid (p : Params) (s : State) : (edgeDetect p s).txvalid = s.txvalid := by
  rw [edgeDetect_eq]

@[simp] theorem edgeDetect_txdone (p : Params) (s : State) : (edgeDetect p s).txdone = s.txdone := by
  rw [edgeDetect_eq]

@[simp] theorem edgeDetect_fdisc (p : Params) (s : State) : (edgeDetect p s).fdisc = s.fdisc := by
  rw [edgeDetect_eq]

@[simp] theorem edgeDetect_fdrop (p : Params) (s : State) : (edgeDetect p s).fdrop = s.fdrop := by
  rw [edgeDetect_eq]

@[simp] theorem edgeDetect_noreply (p : Params) (s : State) : (edgeDetect p s).noreply = s.noreply := by
  rw [edgeDetect_eq]

@[simp] theorem edgeDetect_extLevel (p : Params) (s : State) : (edgeDetect p s).extLevel = s.extLevel := by
  rw [edgeDetect_eq]

@[simp] theorem edgeDetect_rsp (p : Params) (s : State) : (edgeDetect p s).rsp = s.rsp := by
  rw [edgeDetect_eq]

@[simp] theorem edgeDetect_pending (p : Params) (s : State) : (edgeDetect p s).pending = s.pending := by
  rw [edgeDetect_eq]

@[simp] theorem edgeDetect_clkPrev (p : Params) (s : State) : (edgeDetect p s).clkPrev = wire s .clock := by
  rw [edgeDetect_eq]

/-- The wires do not depend on what `edge_detect()` writes. -/
@[simp] theorem wire_edgeDetect (p : Params) (s : State) (l : Line) : wire (edgeDetect p s) l = wire s l := by
  simp [wire, pull]

/-- After `edge_detect()` the detector has seen the CLOCK wire. -/
theorem edgeDetect_seen (p : Params) (s : State) : (edgeDetect p s).clkPrev = wire (edgeDetect p s) .clock := by
  simp

/-! ### The Line Driver -/

@[simp] theorem setDirection_out (p : Params) (l : Line) (m : Direction) (s : State) :
    (setDirection p l m s).out = s.out := by
  simp [setDirection]

@[simp] theorem setDirection_ien (p : Params) (l : Line) (m : Direction) (s : State) :
    (setDirection p l m s).ien = s.ien := by
  simp [setDirection]

@[simp] theorem setDirection_bitcnt (p : Params) (l : Line) (m : Direction) (s : State) :
    (setDirection p l m s).bitcnt = s.bitcnt := by
  simp [setDirection]

@[simp] theorem setDirection_phase (p : Params) (l : Line) (m : Direction) (s : State) :
    (setDirection p l m s).phase = s.phase := by
  simp [setDirection]

@[simp] theorem setDirection_tdir (p : Params) (l : Line) (m : Direction) (s : State) :
    (setDirection p l m s).tdir = s.tdir := by
  simp [setDirection]

@[simp] theorem setDirection_shift (p : Params) (l : Line) (m : Direction) (s : State) :
    (setDirection p l m s).shift = s.shift := by
  simp [setDirection]

@[simp] theorem setDirection_addressed (p : Params) (l : Line) (m : Direction) (s : State) :
    (setDirection p l m s).addressed = s.addressed := by
  simp [setDirection]

@[simp] theorem setDirection_master (p : Params) (l : Line) (m : Direction) (s : State) :
    (setDirection p l m s).master = s.master := by
  simp [setDirection]

@[simp] theorem setDirection_snoop (p : Params) (l : Line) (m : Direction) (s : State) :
    (setDirection p l m s).snoop = s.snoop := by
  simp [setDirection]

@[simp] theorem setDirection_busyLast (p : Params) (l : Line) (m : Direction) (s : State) :
    (setDirection p l m s).busyLast = s.busyLast := by
  simp [setDirection]

@[simp] theorem setDirection_fbuf (p : Params) (l : Line) (m : Direction) (s : State) :
    (setDirection p l m s).fbuf = s.fbuf := by
  simp [setDirection]

@[simp] theorem setDirection_flen (p : Params) (l : Line) (m : Direction) (s : State) :
    (setDirection p l m s).flen = s.flen := by
  simp [setDirection]

@[simp] theorem setDirection_fproc (p : Params) (l : Line) (m : Direction) (s : State) :
    (setDirection p l m s).fproc = s.fproc := by
  simp [setDirection]

@[simp] theorem setDirection_fovf (p : Params) (l : Line) (m : Direction) (s : State) :
    (setDirection p l m s).fovf = s.fovf := by
  simp [setDirection]

@[simp] theorem setDirection_dbuf (p : Params) (l : Line) (m : Direction) (s : State) :
    (setDirection p l m s).dbuf = s.dbuf := by
  simp [setDirection]

@[simp] theorem setDirection_dlen (p : Params) (l : Line) (m : Direction) (s : State) :
    (setDirection p l m s).dlen = s.dlen := by
  simp [setDirection]

@[simp] theorem setDirection_dobs (p : Params) (l : Line) (m : Direction) (s : State) :
    (setDirection p l m s).dobs = s.dobs := by
  simp [setDirection]

@[simp] theorem setDirection_frdy (p : Params) (l : Line) (m : Direction) (s : State) :
    (setDirection p l m s).frdy = s.frdy := by
  simp [setDirection]

@[simp] theorem setDirection_txbuf (p : Params) (l : Line) (m : Direction) (s : State) :
    (setDirection p l m s).txbuf = s.txbuf := by
  simp [setDirection]

@[simp] theorem setDirection_txlen (p : Params) (l : Line) (m : Direction) (s : State) :
    (setDirection p l m s).txlen = s.txlen := by
  simp [setDirection]

@[simp] theorem setDirection_txq (p : Params) (l : Line) (m : Direction) (s : State) :
    (setDirection p l m s).txq = s.txq := by
  simp [setDirection]

@[simp] theorem setDirection_txidx (p : Params) (l : Line) (m : Direction) (s : State) :
    (setDirection p l m s).txidx = s.txidx := by
  simp [setDirection]

@[simp] theorem setDirection_txbyte (p : Params) (l : Line) (m : Direction) (s : State) :
    (setDirection p l m s).txbyte = s.txbyte := by
  simp [setDirection]

@[simp] theorem setDirection_txvalid (p : Params) (l : Line) (m : Direction) (s : State) :
    (setDirection p l m s).txvalid = s.txvalid := by
  simp [setDirection]

@[simp] theorem setDirection_txdone (p : Params) (l : Line) (m : Direction) (s : State) :
    (setDirection p l m s).txdone = s.txdone := by
  simp [setDirection]

@[simp] theorem setDirection_fdisc (p : Params) (l : Line) (m : Direction) (s : State) :
    (setDirection p l m s).fdisc = s.fdisc := by
  simp [setDirection]

@[simp] theorem setDirection_fdrop (p : Params) (l : Line) (m : Direction) (s : State) :
    (setDirection p l m s).fdrop = s.fdrop := by
  simp [setDirection]

@[simp] theorem setDirection_noreply (p : Params) (l : Line) (m : Direction) (s : State) :
    (setDirection p l m s).noreply = s.noreply := by
  simp [setDirection]

@[simp] theorem setDirection_extLevel (p : Params) (l : Line) (m : Direction) (s : State) :
    (setDirection p l m s).extLevel = s.extLevel := by
  simp [setDirection]

@[simp] theorem setDirection_rsp (p : Params) (l : Line) (m : Direction) (s : State) :
    (setDirection p l m s).rsp = s.rsp := by
  simp [setDirection]

@[simp] theorem setDirection_pending (p : Params) (l : Line) (m : Direction) (s : State) :
    (setDirection p l m s).pending = s.pending := by
  simp [setDirection]

@[simp] theorem setDirection_dir (p : Params) (l : Line) (m : Direction) (s : State) :
    (setDirection p l m s).dir = s.dir.set l m := by
  simp [setDirection]

/-- `setDirection` of DATA or BUSY changes the direction and nothing else (R123). -/
theorem setDirection_quiet {p : Params} {l : Line} {m : Direction} {s : State} (hl : l ≠ .clock)
    (h : s.clkPrev = wire s .clock) : setDirection p l m s = { s with dir := s.dir.set l m } := by
  have hw : wire { s with dir := s.dir.set l m } .clock = wire s .clock := by
    cases l <;> first | rfl | exact absurd rfl hl
  exact edgeDetect_same (by rw [hw]; exact h)

/-- Everything that `write` can answer (R124): a next state exactly where the line is an OUTPUT. -/
theorem writeLine_ok {p : Params} {l : Line} {v : Level} {s t : State} :
    writeLine p l v s = .ok t ↔
      s.dir.get l = .output ∧ t = edgeDetect p { s with out := s.out.set l v } := by
  unfold writeLine
  cases s.dir.get l <;> simp [eq_comm]

/-- `write` of an INPUT line faults (R124, R262). -/
theorem writeLine_input {p : Params} {l : Line} {v : Level} {s : State} (h : s.dir.get l = .input) :
    writeLine p l v s = .error .callerMisuse := by
  simp [writeLine, h]

/-- `write` of an OUTPUT line (R124). -/
theorem writeLine_output {p : Params} {l : Line} {v : Level} {s : State} (h : s.dir.get l = .output) :
    writeLine p l v s = .ok (edgeDetect p { s with out := s.out.set l v }) := by
  simp [writeLine, h]

/-- `write` of DATA or BUSY as an OUTPUT changes the level and nothing else (R124). -/
theorem writeLine_quiet {p : Params} {l : Line} {v : Level} {s : State} (hl : l ≠ .clock)
    (hd : s.dir.get l = .output) (h : s.clkPrev = wire s .clock) :
    writeLine p l v s = .ok { s with out := s.out.set l v } := by
  have hw : wire { s with out := s.out.set l v } .clock = wire s .clock := by
    cases l <;> first | rfl | exact absurd rfl hl
  rw [writeLine_output hd, edgeDetect_same (by rw [hw]; exact h)]

@[simp] theorem externalChange_dir (p : Params) (l : Line) (v : Level) (s : State) :
    (externalChange p l v s).dir = s.dir := by
  simp [externalChange]

@[simp] theorem externalChange_out (p : Params) (l : Line) (v : Level) (s : State) :
    (externalChange p l v s).out = s.out := by
  simp [externalChange]

@[simp] theorem externalChange_ien (p : Params) (l : Line) (v : Level) (s : State) :
    (externalChange p l v s).ien = s.ien := by
  simp [externalChange]

@[simp] theorem externalChange_bitcnt (p : Params) (l : Line) (v : Level) (s : State) :
    (externalChange p l v s).bitcnt = s.bitcnt := by
  simp [externalChange]

@[simp] theorem externalChange_phase (p : Params) (l : Line) (v : Level) (s : State) :
    (externalChange p l v s).phase = s.phase := by
  simp [externalChange]

@[simp] theorem externalChange_tdir (p : Params) (l : Line) (v : Level) (s : State) :
    (externalChange p l v s).tdir = s.tdir := by
  simp [externalChange]

@[simp] theorem externalChange_shift (p : Params) (l : Line) (v : Level) (s : State) :
    (externalChange p l v s).shift = s.shift := by
  simp [externalChange]

@[simp] theorem externalChange_addressed (p : Params) (l : Line) (v : Level) (s : State) :
    (externalChange p l v s).addressed = s.addressed := by
  simp [externalChange]

@[simp] theorem externalChange_master (p : Params) (l : Line) (v : Level) (s : State) :
    (externalChange p l v s).master = s.master := by
  simp [externalChange]

@[simp] theorem externalChange_snoop (p : Params) (l : Line) (v : Level) (s : State) :
    (externalChange p l v s).snoop = s.snoop := by
  simp [externalChange]

@[simp] theorem externalChange_busyLast (p : Params) (l : Line) (v : Level) (s : State) :
    (externalChange p l v s).busyLast = s.busyLast := by
  simp [externalChange]

@[simp] theorem externalChange_fbuf (p : Params) (l : Line) (v : Level) (s : State) :
    (externalChange p l v s).fbuf = s.fbuf := by
  simp [externalChange]

@[simp] theorem externalChange_flen (p : Params) (l : Line) (v : Level) (s : State) :
    (externalChange p l v s).flen = s.flen := by
  simp [externalChange]

@[simp] theorem externalChange_fproc (p : Params) (l : Line) (v : Level) (s : State) :
    (externalChange p l v s).fproc = s.fproc := by
  simp [externalChange]

@[simp] theorem externalChange_fovf (p : Params) (l : Line) (v : Level) (s : State) :
    (externalChange p l v s).fovf = s.fovf := by
  simp [externalChange]

@[simp] theorem externalChange_dbuf (p : Params) (l : Line) (v : Level) (s : State) :
    (externalChange p l v s).dbuf = s.dbuf := by
  simp [externalChange]

@[simp] theorem externalChange_dlen (p : Params) (l : Line) (v : Level) (s : State) :
    (externalChange p l v s).dlen = s.dlen := by
  simp [externalChange]

@[simp] theorem externalChange_dobs (p : Params) (l : Line) (v : Level) (s : State) :
    (externalChange p l v s).dobs = s.dobs := by
  simp [externalChange]

@[simp] theorem externalChange_frdy (p : Params) (l : Line) (v : Level) (s : State) :
    (externalChange p l v s).frdy = s.frdy := by
  simp [externalChange]

@[simp] theorem externalChange_txbuf (p : Params) (l : Line) (v : Level) (s : State) :
    (externalChange p l v s).txbuf = s.txbuf := by
  simp [externalChange]

@[simp] theorem externalChange_txlen (p : Params) (l : Line) (v : Level) (s : State) :
    (externalChange p l v s).txlen = s.txlen := by
  simp [externalChange]

@[simp] theorem externalChange_txq (p : Params) (l : Line) (v : Level) (s : State) :
    (externalChange p l v s).txq = s.txq := by
  simp [externalChange]

@[simp] theorem externalChange_txidx (p : Params) (l : Line) (v : Level) (s : State) :
    (externalChange p l v s).txidx = s.txidx := by
  simp [externalChange]

@[simp] theorem externalChange_txbyte (p : Params) (l : Line) (v : Level) (s : State) :
    (externalChange p l v s).txbyte = s.txbyte := by
  simp [externalChange]

@[simp] theorem externalChange_txvalid (p : Params) (l : Line) (v : Level) (s : State) :
    (externalChange p l v s).txvalid = s.txvalid := by
  simp [externalChange]

@[simp] theorem externalChange_txdone (p : Params) (l : Line) (v : Level) (s : State) :
    (externalChange p l v s).txdone = s.txdone := by
  simp [externalChange]

@[simp] theorem externalChange_fdisc (p : Params) (l : Line) (v : Level) (s : State) :
    (externalChange p l v s).fdisc = s.fdisc := by
  simp [externalChange]

@[simp] theorem externalChange_fdrop (p : Params) (l : Line) (v : Level) (s : State) :
    (externalChange p l v s).fdrop = s.fdrop := by
  simp [externalChange]

@[simp] theorem externalChange_noreply (p : Params) (l : Line) (v : Level) (s : State) :
    (externalChange p l v s).noreply = s.noreply := by
  simp [externalChange]

@[simp] theorem externalChange_rsp (p : Params) (l : Line) (v : Level) (s : State) :
    (externalChange p l v s).rsp = s.rsp := by
  simp [externalChange]

@[simp] theorem externalChange_pending (p : Params) (l : Line) (v : Level) (s : State) :
    (externalChange p l v s).pending = s.pending := by
  simp [externalChange]

@[simp] theorem externalChange_extLevel (p : Params) (l : Line) (v : Level) (s : State) :
    (externalChange p l v s).extLevel = s.extLevel.set l v := by
  simp [externalChange]

/-! ### Reset -/

/-- CLK_PREV after reset is the environment's CLOCK level (R290). -/
@[simp] theorem resetBlock_clkPrev (s : State) : (resetBlock s).clkPrev = s.extLevel.clock := by
  cases h : s.extLevel.clock <;> simp [resetBlock, wire, pull, State.reset, h]

/-- Everything that reset does (R59, R290). -/
theorem resetBlock_eq (s : State) :
    resetBlock s = { State.reset with
      extLevel := s.extLevel, rsp := s.rsp, pending := s.pending, clkPrev := s.extLevel.clock } := by
  have h := resetBlock_clkPrev s
  simp only [resetBlock] at h ⊢
  rw [h]

@[simp] theorem resetBlock_dir (s : State) : (resetBlock s).dir = State.reset.dir := rfl

@[simp] theorem resetBlock_out (s : State) : (resetBlock s).out = State.reset.out := rfl

@[simp] theorem resetBlock_ien (s : State) : (resetBlock s).ien = State.reset.ien := rfl

@[simp] theorem resetBlock_ipend (s : State) : (resetBlock s).ipend = State.reset.ipend := rfl

@[simp] theorem resetBlock_bitcnt (s : State) : (resetBlock s).bitcnt = State.reset.bitcnt := rfl

@[simp] theorem resetBlock_phase (s : State) : (resetBlock s).phase = State.reset.phase := rfl

@[simp] theorem resetBlock_tdir (s : State) : (resetBlock s).tdir = State.reset.tdir := rfl

@[simp] theorem resetBlock_shift (s : State) : (resetBlock s).shift = State.reset.shift := rfl

@[simp] theorem resetBlock_addressed (s : State) : (resetBlock s).addressed = State.reset.addressed := rfl

@[simp] theorem resetBlock_master (s : State) : (resetBlock s).master = State.reset.master := rfl

@[simp] theorem resetBlock_snoop (s : State) : (resetBlock s).snoop = State.reset.snoop := rfl

@[simp] theorem resetBlock_busyLast (s : State) : (resetBlock s).busyLast = State.reset.busyLast := rfl

@[simp] theorem resetBlock_fbuf (s : State) : (resetBlock s).fbuf = State.reset.fbuf := rfl

@[simp] theorem resetBlock_flen (s : State) : (resetBlock s).flen = State.reset.flen := rfl

@[simp] theorem resetBlock_fproc (s : State) : (resetBlock s).fproc = State.reset.fproc := rfl

@[simp] theorem resetBlock_fovf (s : State) : (resetBlock s).fovf = State.reset.fovf := rfl

@[simp] theorem resetBlock_dbuf (s : State) : (resetBlock s).dbuf = State.reset.dbuf := rfl

@[simp] theorem resetBlock_dlen (s : State) : (resetBlock s).dlen = State.reset.dlen := rfl

@[simp] theorem resetBlock_dobs (s : State) : (resetBlock s).dobs = State.reset.dobs := rfl

@[simp] theorem resetBlock_frdy (s : State) : (resetBlock s).frdy = State.reset.frdy := rfl

@[simp] theorem resetBlock_txbuf (s : State) : (resetBlock s).txbuf = State.reset.txbuf := rfl

@[simp] theorem resetBlock_txlen (s : State) : (resetBlock s).txlen = State.reset.txlen := rfl

@[simp] theorem resetBlock_txq (s : State) : (resetBlock s).txq = State.reset.txq := rfl

@[simp] theorem resetBlock_txidx (s : State) : (resetBlock s).txidx = State.reset.txidx := rfl

@[simp] theorem resetBlock_txbyte (s : State) : (resetBlock s).txbyte = State.reset.txbyte := rfl

@[simp] theorem resetBlock_txvalid (s : State) : (resetBlock s).txvalid = State.reset.txvalid := rfl

@[simp] theorem resetBlock_txdone (s : State) : (resetBlock s).txdone = State.reset.txdone := rfl

@[simp] theorem resetBlock_elost (s : State) : (resetBlock s).elost = State.reset.elost := rfl

@[simp] theorem resetBlock_fdisc (s : State) : (resetBlock s).fdisc = State.reset.fdisc := rfl

@[simp] theorem resetBlock_fdrop (s : State) : (resetBlock s).fdrop = State.reset.fdrop := rfl

@[simp] theorem resetBlock_noreply (s : State) : (resetBlock s).noreply = State.reset.noreply := rfl

@[simp] theorem resetBlock_extLevel (s : State) : (resetBlock s).extLevel = s.extLevel := rfl

@[simp] theorem resetBlock_rsp (s : State) : (resetBlock s).rsp = s.rsp := rfl

@[simp] theorem resetBlock_pending (s : State) : (resetBlock s).pending = s.pending := rfl

end Sys2Proof.Machine
end

