-- ==== Sys2Proof/Laws/FrameAssembler.lean ====
section
/-! SUPPORT. The Frame Assembler and CLAIM: for each procedure one lemma that says once everything it can do. -/

namespace Sys2Proof.Machine

/-! ### The lines DATA and BUSY, whatever the edge detector has seen -/

/-- `edge_detect()` twice is `edge_detect()` once. -/
theorem edgeDetect_idem (p : Params) (s : State) : edgeDetect p (edgeDetect p s) = edgeDetect p s :=
  edgeDetect_same (edgeDetect_seen p s)

/-- `edge_detect()` looks at CLOCK only (R141): a change that keeps the CLOCK wire and what the detector keeps can be
made before it or after it. -/
theorem edgeDetect_congr {p : Params} {s t : State} (hw : wire t .clock = wire s .clock)
    (hi : t.ipend = s.ipend) (hn : t.ien = s.ien) (he : t.elost = s.elost) (hc : t.clkPrev = s.clkPrev) :
    edgeDetect p t = { t with
      ipend := (edgeDetect p s).ipend, elost := (edgeDetect p s).elost, clkPrev := (edgeDetect p s).clkPrev } := by
  rw [edgeDetect_eq p t, edgeDetect_eq p s, edgeFound, edgeFound, hw, hi, hn, he, hc]

/-- `setDirection` of DATA or BUSY (R123). -/
theorem setDirection_busLine {p : Params} {l : Line} {m : Direction} {s : State} (hl : l ≠ .clock) :
    setDirection p l m s = { edgeDetect p s with dir := s.dir.set l m } := by
  have hw : wire { s with dir := s.dir.set l m } .clock = wire s .clock := by
    cases l <;> first | rfl | exact absurd rfl hl
  rw [setDirection, edgeDetect_congr hw rfl rfl rfl rfl, edgeDetect_eq]

/-- `write` of DATA or BUSY as an OUTPUT (R124). -/
theorem writeLine_busLine {p : Params} {l : Line} {v : Level} {s : State} (hl : l ≠ .clock)
    (hd : s.dir.get l = .output) :
    writeLine p l v s = .ok { edgeDetect p s with out := s.out.set l v } := by
  have hw : wire { s with out := s.out.set l v } .clock = wire s .clock := by
    cases l <;> first | rfl | exact absurd rfl hl
  rw [writeLine_output hd, edgeDetect_congr hw rfl rfl rfl rfl, edgeDetect_eq]

/-! ### to_idle and discard -/

/-- Everything that `to_idle()` does (R192). -/
theorem toIdle_eq (s : State) : toIdle s = { s with
    phase := .idle, tdir := .receiving, bitcnt := 0#3, shift := 0#8, flen := 0#8, fproc := 0#8, fovf := false,
    addressed := false, ien := false } := rfl

/-- Everything that `discard()` does (R191). -/
theorem discard_eq (s : State) : discard s = toIdle { s with fdisc := true } := rfl

/-! ### Delivery -/

/-- The copy of the frame succeeds up to the capacity (R190). -/
theorem copyUnits_total {p : Params} {n : Nat} (h : n ≤ p.frameMax) (s : State) : ∃ t, copyUnits p n s = .ok t := by
  induction n with
  | zero => exact ⟨s, rfl⟩
  | succ n ih =>
    obtain ⟨t, ht⟩ := ih (by omega)
    exact ⟨_, bind_ok.2 ⟨t, ht, bind_ok.2 ⟨_, memRead_ok.2 ⟨h, rfl⟩, memWrite_ok.2 ⟨h, rfl⟩⟩⟩⟩

/-- Everything that the copy of the frame can do (R190): DBUF below `n` gets the units of FBUF, in canonical form
where it was, and nothing else changes. -/
theorem copyUnits_ok {p : Params} {n : Nat} {s t : State} (h : copyUnits p n s = .ok t) :
    n ≤ p.frameMax ∧ ∃ m, t = { s with dbuf := m } ∧
      (∀ a, n ≤ a → m.read a = s.dbuf.read a) ∧
      (s.dbuf.wf p.frameMax = true → m.wf p.frameMax = true ∧ ∀ a, a < n → m.read a = s.fbuf.read a) := by
  induction n generalizing t with
  | zero =>
    cases h
    exact ⟨Nat.zero_le _, _, rfl, fun _ _ => rfl, fun hw => ⟨hw, fun a ha => absurd ha (Nat.not_lt_zero a)⟩⟩
  | succ n ih =>
    obtain ⟨u, hu, h⟩ := bind_ok.1 h
    obtain ⟨b, hb, h⟩ := bind_ok.1 h
    obtain ⟨hn, m, rfl, hm, hw⟩ := ih hu
    obtain ⟨hc, rfl⟩ := memRead_ok.1 hb
    obtain ⟨-, rfl⟩ := memWrite_ok.1 h
    refine ⟨hc, _, rfl, fun a ha => ?_, fun hs => ⟨wf_write _ (hw hs).1 hc, fun a ha => ?_⟩⟩
    · exact (read_write_other _ (by omega)).trans (hm a (by omega))
    · by_cases han : a = n
      · rw [han]; exact read_write_same _ _ (hw hs).1
      · exact (read_write_other _ han).trans ((hw hs).2 a (by omega))

/-- A delivery succeeds where FPROC is within the capacity (R190). -/
theorem deliver_total {p : Params} {s : State} (h : s.fproc.toNat ≤ p.frameMax) : ∃ t, deliver p s = .ok t := by
  unfold deliver
  split
  · exact ⟨_, rfl⟩
  · obtain ⟨t, ht⟩ := copyUnits_total h s
    exact ⟨_, bind_ok.2 ⟨t, ht, rfl⟩⟩

/-- Everything that `deliver()` can do (R190). -/
theorem deliver_ok {p : Params} {s t : State} (h : deliver p s = .ok t) :
    (s.frdy = true ∧ t = { s with fdrop := true }) ∨
    (s.frdy = false ∧ s.fproc.toNat ≤ p.frameMax ∧
      ∃ m, t = { s with dbuf := m, dlen := s.fproc, dobs := !s.addressed, frdy := true } ∧
        (∀ a, s.fproc.toNat ≤ a → m.read a = s.dbuf.read a) ∧
        (s.dbuf.wf p.frameMax = true →
          m.wf p.frameMax = true ∧ ∀ a, a < s.fproc.toNat → m.read a = s.fbuf.read a)) := by
  unfold deliver at h
  split at h
  · next hf =>
    cases h
    exact .inl ⟨hf, rfl⟩
  · next hf =>
    obtain ⟨u, hu, h⟩ := bind_ok.1 h
    obtain ⟨hn, m, rfl, hm, hw⟩ := copyUnits_ok hu
    cases h
    exact .inr ⟨by simpa using hf, hn, m, rfl, hm, hw⟩

/-- A delivery while the last frame has not been taken only sets FDROP (R190). -/
theorem deliver_untaken {p : Params} {s : State} (h : s.frdy = true) : deliver p s = .ok { s with fdrop := true } :=
  if_pos h

/-! ### Judging -/

/-- Everything that `judge()` can answer (R186): PROTO's verdict on the units examined, with REPLY for another node's
frame turned into OPEN. -/
theorem judge_ok {p : Params} {s : State} {v : Verdict} :
    judge p s = .ok v ↔ s.fproc.toNat ≤ p.frameMax ∧
      v = if p.judge (unitsExamined s) s.addressed = .reply ∧ s.addressed = false then .openEnded
        else p.judge (unitsExamined s) s.addressed := by
  unfold judge
  rw [bind_ok]
  simp only [memPrefix_ok, capacity_fbuf, buf_fbuf]
  constructor
  · rintro ⟨us, ⟨hc, rfl⟩, h⟩
    refine ⟨hc, ?_⟩
    change (match p.judge (unitsExamined s) s.addressed with
      | .reply => if s.addressed = true then pure .reply else pure .openEnded
      | v => pure v) = Except.ok v at h
    revert h
    cases p.judge (unitsExamined s) s.addressed <;> cases s.addressed <;> intro h <;> cases h <;> simp
  · rintro ⟨hc, rfl⟩
    refine ⟨_, ⟨hc, rfl⟩, ?_⟩
    change (match p.judge (unitsExamined s) s.addressed with
      | .reply => if s.addressed = true then pure .reply else pure .openEnded
      | v => pure v) = Except.ok (ε := Fault) _
    cases p.judge (unitsExamined s) s.addressed <;> cases s.addressed <;> rfl

/-! ### Taking the bus and giving it back -/

/-- Taking BUSY (R194, R236): the line is an OUTPUT and LOW, and the edge detector has seen the CLOCK wire. -/
theorem takeBusy {p : Params} (s : State) :
    writeLine p .busy .low (setDirection p .busy .output s) = .ok { edgeDetect p s with
      dir := { s.dir with busy := .output }, out := { s.out with busy := .low } } := by
  rw [setDirection_busLine (by simp), writeLine_quiet (by simp) (by simp) (by simp [wire, pull])]
  simp

/-- Everything that `begin_response()` does (R194, R222): it never stops. -/
theorem beginResponse_eq {p : Params} (h : 0 < p.txMax) (s : State) :
    beginResponse p s = .ok { edgeDetect p s with
      dir := { s.dir with data := .output, busy := .output }, out := { s.out with busy := .low },
      txidx := 0#8, txbyte := s.txbuf.read 0, txvalid := true, txdone := false,
      bitcnt := 0#3, shift := 0#8, flen := s.fproc, tdir := .transmitting, phase := .responding } := by
  unfold beginResponse
  rw [takeBusy]
  simp only [bind, Except.bind, memRead, capacity_txbuf, h, if_true, pure, Except.pure]
  rw [setDirection_quiet (by simp) (by simp [wire, pull])]
  simp

/-- Everything that an accepted CLAIM does before it responds (R236, R222): it never stops. -/
theorem claimBus_eq {p : Params} (h : 0 < p.txMax) (s : State) :
    claimBus p s = .ok { edgeDetect p s with
      dir := { s.dir with data := .output, busy := .output }, out := { s.out with busy := .low },
      master := true, busyLast := .low, flen := 0#8, fproc := 0#8, fovf := false, addressed := false,
      bitcnt := 0#3, shift := 0#8, txidx := 0#8, txbyte := s.txbuf.read 0, txvalid := true, txdone := false,
      tdir := .transmitting, phase := .addressPhase, ien := true, ipend := false } := by
  unfold claimBus
  rw [takeBusy]
  simp only [bind, Except.bind, memRead, capacity_txbuf, h, if_true, pure, Except.pure]
  rw [setDirection_quiet (by simp) (by simp [wire, pull])]
  simp [enable, clearPending]

/-- Everything that `end_transmit()` can do (R197, R223): it stops exactly where DATA or BUSY is an INPUT. -/
theorem endTransmit_ok {p : Params} {s t : State} :
    endTransmit p s = .ok t ↔ s.dir.data = .output ∧ s.dir.busy = .output ∧
      t = toIdle { edgeDetect p s with
        out := { s.out with data := .high, busy := .high }, dir := { s.dir with data := .input, busy := .input },
        txq := false, txlen := 0#8, txidx := 0#8, txbyte := 0#8, txvalid := false, txdone := false,
        master := false, busyLast := .low } := by
  unfold endTransmit
  cases hd : s.dir.data with
  | input => simp [writeLine, hd, bind, Except.bind]
  | output =>
    rw [writeLine_busLine (by simp) (by simpa using hd)]
    simp only [bind, Except.bind]
    rw [setDirection_quiet (by simp) (by simp [wire, pull])]
    cases hb : s.dir.busy with
    | input => simp [writeLine, hb]
    | output =>
      rw [writeLine_quiet (by simp) (by simp [hb]) (by simp [wire, pull])]
      simp only [pure, Except.pure]
      rw [setDirection_quiet (by simp) (by simp [wire, pull])]
      simp [toIdle, disable, eq_comm]

/-! ### One unit -/

/-- Everything that `reply()` can do (R193). -/
theorem reply_ok {p : Params} {s t : State} :
    reply p s = .ok t ↔ ∃ u, deliver p s = .ok u ∧
      ((u.txq = true ∧ beginResponse p u = .ok t) ∨ (u.txq = false ∧ t = toIdle { u with noreply := true })) := by
  unfold reply
  rw [bind_ok]
  refine exists_congr fun u => and_congr_right fun _ => ?_
  cases u.txq <;> simp [pure, Except.pure, eq_comm]

/-- Everything that `judge_and_act()` can do (R186 to R189, R193). -/
theorem judgeAndAct_ok {p : Params} {s t : State} :
    judgeAndAct p s = .ok t ↔
      ((judge p s = .ok .more ∨ judge p s = .ok .openEnded) ∧ t = s) ∨
      (judge p s = .ok .complete ∧ ∃ u, deliver p s = .ok u ∧ t = toIdle u) ∨
      (judge p s = .ok .violation ∧ t = discard s) ∨
      (judge p s = .ok .reply ∧ reply p s = .ok t) := by
  unfold judgeAndAct
  rw [bind_ok]
  cases judge p s with
  | error f => simp
  | ok v => cases v <;> simp [-Except.ok.injEq, bind_ok, pure, Except.pure, answers]

/-- `process_unit()` on the address unit (R185). -/
theorem processUnit_address {p : Params} {s : State} (hp : s.phase = .addressPhase) (hc : 0 < p.frameMax) :
    processUnit p s = if s.fbuf.read 0 ≠ p.nodeAddr ∧ s.snoop = false then .ok (toIdle s)
      else judgeAndAct p (examined p s) := by
  unfold processUnit examined
  rw [if_pos hp, if_pos hp]
  simp only [memRead, capacity_fbuf, hc, if_true, bind, Except.bind, buf_fbuf, pure, Except.pure]
  by_cases ha : s.fbuf.read 0 = p.nodeAddr
  · simp [ha]
  · by_cases hs : s.snoop = false
    · rw [if_pos ⟨by simpa using ha, hs⟩, if_pos ⟨ha, hs⟩]
      rfl
    · simp [hs]

/-- `process_unit()` on a later unit (R185). -/
theorem processUnit_payload {p : Params} {s : State} (hp : s.phase ≠ .addressPhase) :
    processUnit p s = judgeAndAct p (examined p s) := by
  unfold processUnit examined
  rw [if_neg hp, if_neg hp]

/-! ### The loop over the units -/

/-- The loop ends at once where nothing is left to examine (R184). -/
theorem processUnits_none {p : Params} {n : Nat} {s : State}
    (h : ¬(s.fproc.toNat < s.flen.toNat ∧ receivingPhase s = true)) : processUnits p n s = .ok s := by
  cases n with
  | zero => rfl
  | succ n => exact if_neg h

/-- The loop takes the oldest unit that has not been examined (R184). -/
theorem processUnits_succ {p : Params} {n : Nat} {s t : State} (h : s.fproc.toNat < s.flen.toNat)
    (hr : receivingPhase s = true) :
    processUnits p (n + 1) s = .ok t ↔ ∃ u, processUnit p s = .ok u ∧ processUnits p n u = .ok t := by
  rw [processUnits, if_pos ⟨h, hr⟩, bind_ok]

/-- What `process_unit()` keeps, the loop keeps (R184). -/
theorem processUnits_keeps {p : Params} {P : State → Prop}
    (hstep : ∀ s t, s.fproc.toNat < s.flen.toNat → receivingPhase s = true → P s → processUnit p s = .ok t → P t)
    {n : Nat} {s t : State} (hs : P s) (h : processUnits p n s = .ok t) : P t := by
  induction n generalizing s with
  | zero => cases h; exact hs
  | succ n ih =>
    by_cases hc : s.fproc.toNat < s.flen.toNat ∧ receivingPhase s = true
    · obtain ⟨u, hu, h⟩ := (processUnits_succ hc.1 hc.2).1 h
      exact ih (hstep s u hc.1 hc.2 hs hu) h
    · rw [processUnits_none hc] at h
      cases h
      exact hs

/-! ### The cases of ASM -/

/-- Everything that `frame_end_check()` can do (R195). -/
theorem frameEndCheck_ok {p : Params} {s t : State} :
    frameEndCheck p s = .ok t ↔
      (s.fovf = true ∧ t = discard s) ∨
      (s.fovf = false ∧ readLine s .busy = .low ∧ t = s) ∨
      (s.fovf = false ∧ readLine s .busy = .high ∧ s.bitcnt ≠ 0#3 ∧ t = discard { s with busyLast := .high }) ∨
      (s.fovf = false ∧ readLine s .busy = .high ∧ s.bitcnt = 0#3 ∧ s.fproc = 0#8 ∧
        t = toIdle { s with busyLast := .high }) ∨
      (s.fovf = false ∧ readLine s .busy = .high ∧ s.bitcnt = 0#3 ∧ s.fproc ≠ 0#8 ∧
        ∃ v, judge p { s with busyLast := .high } = .ok v ∧
          ((v = .openEnded ∧ ∃ u, deliver p { s with busyLast := .high } = .ok u ∧ t = toIdle u) ∨
            (v ≠ .openEnded ∧ t = discard { s with busyLast := .high }))) := by
  unfold frameEndCheck
  generalize hs : ({ s with busyLast := .high } : State) = r
  have hf : r.fproc = s.fproc := by rw [← hs]
  have hb : r.bitcnt = s.bitcnt := by rw [← hs]
  dsimp only
  rw [hf, hb]
  by_cases ho : s.fovf = true
  · simp [-Except.ok.injEq, ho, answers]
  · cases readLine s .busy with
    | low => simp [-Except.ok.injEq, ho, answers]
    | high =>
      by_cases hf : s.fproc = 0#8 <;> by_cases hb : s.bitcnt = 0#3
      · simp [-Except.ok.injEq, ho, hf, hb, answers]
      · simp [-Except.ok.injEq, ho, hf, hb, answers]
      · simp [-Except.ok.injEq, -bind_pure_comp, ho, hf, hb, bind_ok]
        refine exists_congr fun v => and_congr_right fun _ => ?_
        cases v <;> simp [-Except.ok.injEq, bind_ok, pure, Except.pure, answers]
      · simp [-Except.ok.injEq, ho, hf, hb, answers]

/-- Everything that `receive_case()` can do (R184): the loop, and the end of the frame where it has not ended. -/
theorem receiveCase_ok {p : Params} {s t : State} :
    receiveCase p s = .ok t ↔ ∃ u, processUnits p (s.flen.toNat - s.fproc.toNat) s = .ok u ∧
      ((receivingPhase u = true ∧ frameEndCheck p u = .ok t) ∨ (receivingPhase u = false ∧ t = u)) := by
  unfold receiveCase
  rw [bind_ok]
  refine exists_congr fun u => and_congr_right fun _ => ?_
  cases receivingPhase u <;> simp [pure, Except.pure, eq_comm]

/-- Everything that ASM can do where it answers a next state (R180): one of the four cases. -/
theorem asmAt_next {p : Params} {s t : State} :
    asmAt p s = .next t ↔
      (s.phase = .idle ∧ t = idleCase s) ∨
      (s.phase ≠ .idle ∧ s.master = true ∧ masterCase p s = .ok t) ∨
      (s.phase = .responding ∧ s.master = false ∧ respondingCase p s = .ok t) ∨
      ((s.phase = .addressPhase ∨ s.phase = .payloadPhase) ∧ s.master = false ∧ receiveCase p s = .ok t) := by
  unfold asmAt asmBody
  rw [finish_next]
  cases s.phase <;> cases s.master <;> simp [eq_comm]

/-- Everything that `idle_case()` can do (R181, R182). -/
theorem idleCase_eq (s : State) :
    (readLine s .busy = .high ∧ idleCase s = { s with busyLast := .high }) ∨
    (readLine s .busy = .low ∧ s.busyLast = .high ∧ idleCase s = startFrame { s with busyLast := .low }) ∨
    (readLine s .busy = .low ∧ s.busyLast = .low ∧ idleCase s = s) := by
  unfold idleCase
  cases readLine s .busy <;> cases s.busyLast <;> simp

/-- Everything that CLAIM can do (R236): it never stops. -/
theorem claimAt_next {p : Params} (h : 0 < p.txMax) {s t : State} :
    claimAt p s = .next t ↔
      if claimAccepted s then ∃ u, claimBus p s = .ok u ∧ t = u.respond accepted else t = s.respond nothing := by
  unfold claimAt
  rw [claimBus_eq h]
  split <;> simp [eq_comm]

end Sys2Proof.Machine
end

