-- ==== Sys2Proof/Laws/PerInstr.lean ====
section
/-! SUPPORT. What holds of every instruction as syntax, one lemma for each constructor: the word of an instruction
selects a row of the opcode map (30_encoding.md R94, R98), and its major opcode tells a label from a host command
(R95). -/

namespace Sys2Proof.Laws

/-- The word of an instruction that fits selects a row of R94, and it is a label exactly where its major opcode is
0xE or 0xF (R95). -/
def EncodingSelectsRow.Statement (i : Instr) : Prop :=
  ∀ bpu, i.fits bpu = true →
    (∃ r ∈ opcodeRows, r.selects bpu (encode i) = true) ∧ (i.isLabel = true ↔ 14 ≤ opField (encode i))

/-- A word that matches a row without an operand condition selects it. -/
theorem selects_plain {bpu : Nat} {w m q : Word} (h : w &&& m = q) : (Row.mk m q false false).selects bpu w = true := by
  simp [Row.selects, h]

/-- A word that matches a row with a line selects it where the line is not 3. -/
theorem selects_line {bpu : Nat} {w m q : Word} (h : w &&& m = q) (hl : w.extractLsb' 8 2 ≠ 3#2) :
    (Row.mk m q true false).selects bpu w = true := by
  simp [Row.selects, h, hl]

/-- The immediate of a word built from a major and minor opcode and eight bits. -/
theorem immField_add (imm : Byte) : immField (0x6000#16 + imm.setWidth 16) = imm := by
  revert imm; decide

/-- The upper byte of TXPUSH. -/
theorem upper_txpush (imm : Byte) : (0x6000#16 + imm.setWidth 16) &&& 0xFF00#16 = 0x6000#16 := by
  revert imm; decide

/-- The upper byte of RXRD. -/
theorem upper_rxrd (imm : Byte) : (0x7100#16 + imm.setWidth 16) &&& 0xFF00#16 = 0x7100#16 := by
  revert imm; decide

/-- The number field of RDSR. -/
theorem upper_rdsr (n : BitVec 4) : (0x8000#16 + (n.setWidth 16 <<< 8)) &&& 0xF0FF#16 = 0x8000#16 := by
  revert n; decide

/-- A word whose row has no operand condition. -/
theorem selectsRow_plain {i : Instr} {m q : Word} (hr : Row.mk m q false false ∈ opcodeRows)
    (h : encode i &&& m = q) (hl : i.isLabel = true ↔ 14 ≤ opField (encode i)) : EncodingSelectsRow.Statement i :=
  fun _ _ => ⟨⟨_, hr, selects_plain h⟩, hl⟩

/-- A word whose row has a line. -/
theorem selectsRow_line {i : Instr} {m q : Word} (hr : Row.mk m q true false ∈ opcodeRows)
    (h : encode i &&& m = q) (hl3 : (encode i).extractLsb' 8 2 ≠ 3#2)
    (hl : i.isLabel = true ↔ 14 ≤ opField (encode i)) : EncodingSelectsRow.Statement i :=
  fun _ _ => ⟨⟨_, hr, selects_line h hl3⟩, hl⟩

/-- The major opcode of TXPUSH. -/
theorem major_txpush (imm : Byte) : opField (0x6000#16 + imm.setWidth 16) = 6 := by
  revert imm; decide

/-- The major opcode of RXRD. -/
theorem major_rxrd (imm : Byte) : opField (0x7100#16 + imm.setWidth 16) = 7 := by
  revert imm; decide

/-- The major opcode of RDSR. -/
theorem major_rdsr (n : BitVec 4) : opField (0x8000#16 + (n.setWidth 16 <<< 8)) = 8 := by
  revert n; decide

/-! ### One lemma for each constructor -/

namespace EncodingSelectsRow

theorem nop : Statement .nop :=
  selectsRow_plain (m := 0xFFFF#16) (q := 0x0000#16) (by decide) (by decide) (by decide)

theorem setdir (line : Line) (mode : Direction) : Statement (.setdir line mode) :=
  selectsRow_line (m := 0xFCFE#16) (q := 0x1000#16) (by decide)
    (by cases line <;> cases mode <;> decide) (by cases line <;> cases mode <;> decide) (by cases line <;> cases mode <;> decide)

theorem wrline (line : Line) (level : Level) : Statement (.wrline line level) :=
  selectsRow_line (m := 0xFCFE#16) (q := 0x2000#16) (by decide)
    (by cases line <;> cases level <;> decide) (by cases line <;> cases level <;> decide) (by cases line <;> cases level <;> decide)

theorem rdline (line : Line) : Statement (.rdline line) :=
  selectsRow_line (m := 0xFCFF#16) (q := 0x3000#16) (by decide)
    (by cases line <;> decide) (by cases line <;> decide) (by cases line <;> decide)

theorem ien : Statement .ien :=
  selectsRow_plain (m := 0xFFFF#16) (q := 0x4000#16) (by decide) (by decide) (by decide)

theorem idis : Statement .idis :=
  selectsRow_plain (m := 0xFFFF#16) (q := 0x4100#16) (by decide) (by decide) (by decide)

theorem iclr : Statement .iclr :=
  selectsRow_plain (m := 0xFFFF#16) (q := 0x4200#16) (by decide) (by decide) (by decide)

theorem init : Statement .init :=
  selectsRow_plain (m := 0xFFFF#16) (q := 0x5000#16) (by decide) (by decide) (by decide)

theorem snoop (on : Bool) : Statement (.snoop on) :=
  selectsRow_plain (m := 0xFFFE#16) (q := 0x5100#16) (by decide)
    (by cases on <;> decide) (by cases on <;> decide)

theorem claim : Statement .claim :=
  selectsRow_plain (m := 0xFFFF#16) (q := 0x5200#16) (by decide) (by decide) (by decide)

theorem txpush (imm : Byte) : Statement (.txpush imm) := by
  intro bpu h
  refine ⟨⟨⟨0xFF00#16, 0x6000#16, false, true⟩, by decide, ?_⟩, ?_⟩
  · simpa [Row.selects, encode, upper_txpush, immField_add] using of_decide_eq_true h
  · simp [encode, major_txpush, Instr.isLabel]

theorem txenq : Statement .txenq :=
  selectsRow_plain (m := 0xFFFF#16) (q := 0x6100#16) (by decide) (by decide) (by decide)

theorem txclr : Statement .txclr :=
  selectsRow_plain (m := 0xFFFF#16) (q := 0x6200#16) (by decide) (by decide) (by decide)

theorem rxlen : Statement .rxlen :=
  selectsRow_plain (m := 0xFFFF#16) (q := 0x7000#16) (by decide) (by decide) (by decide)

theorem rxrd (imm : Byte) : Statement (.rxrd imm) :=
  selectsRow_plain (m := 0xFF00#16) (q := 0x7100#16) (by decide) (upper_rxrd imm)
    (by simp [encode, major_rxrd, Instr.isLabel])

theorem rxack : Statement .rxack :=
  selectsRow_plain (m := 0xFFFF#16) (q := 0x7200#16) (by decide) (by decide) (by decide)

theorem rdsr (n : BitVec 4) : Statement (.rdsr n) :=
  selectsRow_plain (m := 0xF0FF#16) (q := 0x8000#16) (by decide) (upper_rdsr n)
    (by simp [encode, major_rdsr, Instr.isLabel])

theorem ext (line : Line) (level : Level) : Statement (.ext line level) :=
  selectsRow_line (m := 0xFCFE#16) (q := 0xE000#16) (by decide)
    (by cases line <;> cases level <;> decide) (by cases line <;> cases level <;> decide) (by cases line <;> cases level <;> decide)

theorem sample : Statement .sample :=
  selectsRow_plain (m := 0xFFFF#16) (q := 0xF000#16) (by decide) (by decide) (by decide)

theorem asm : Statement .asm :=
  selectsRow_plain (m := 0xFFFF#16) (q := 0xF100#16) (by decide) (by decide) (by decide)

theorem reset : Statement .reset :=
  selectsRow_plain (m := 0xFFFF#16) (q := 0xF200#16) (by decide) (by decide) (by decide)

end EncodingSelectsRow

end Sys2Proof.Laws
end

