-- ==== Sys2Proof/Laws/Sampler.lean ====
section
/-! SUPPORT. The Bit Clock Sampler: for each procedure one lemma that says once everything it can do. -/

namespace Sys2Proof.Machine

/-! ### The bit counter -/

/-- A unit is complete exactly where the bit just taken is number BPU - 1 of it (R163). -/
theorem completesUnit_iff {p : Params} {s : State} : completesUnit p s = true ↔ s.bitcnt.toNat + 1 = p.bpu := by
  simp [completesUnit]

/-- The bit counter stays below BPU (R58 item 1, R163). -/
theorem nextBitcnt_lt {p : Params} {s : State} (hp : p.Valid) (h : s.bitcnt.toNat < p.bpu) :
    (nextBitcnt p s).toNat < p.bpu := by
  have h1 := hp.bpu_pos
  have h8 := hp.bpu_le
  unfold nextBitcnt
  split
  · simpa using (by omega : 0 < p.bpu)
  · rw [BitVec.toNat_ofNat]; omega

/-- Inside a unit the bit counter counts (R163). -/
theorem nextBitcnt_inside {p : Params} {s : State} (h : s.bitcnt.toNat + 1 ≠ p.bpu) :
    nextBitcnt p s = s.bitcnt + 1#3 := by
  rw [nextBitcnt, if_neg h]
  apply BitVec.eq_of_toNat_eq
  simp

/-- At the end of a unit the bit counter is cleared (R163). -/
theorem nextBitcnt_complete {p : Params} {s : State} (h : s.bitcnt.toNat + 1 = p.bpu) : nextBitcnt p s = 0#3 :=
  if_pos h

/-! ### Receiving -/

/-- Everything that `receive_complete` can do (R164): it never stops. -/
theorem receiveComplete_ok {p : Params} {s t : State} :
    receiveComplete p s = .ok t ↔
      (s.flen.toNat < p.frameMax ∧
        t = { s with fbuf := s.fbuf.write s.flen.toNat s.shift, flen := s.flen + 1#8, shift := 0#8 }) ∨
      (p.frameMax ≤ s.flen.toNat ∧ t = { s with fovf := true, shift := 0#8 }) := by
  unfold receiveComplete
  split
  · next h =>
    rw [bind_ok]
    simp only [memWrite_ok, capacity_fbuf, buf_fbuf, setBuf_fbuf]
    constructor
    · rintro ⟨a, ⟨-, rfl⟩, ht⟩
      cases ht
      exact .inl ⟨h, rfl⟩
    · rintro (⟨-, rfl⟩ | ⟨hn, -⟩)
      · exact ⟨_, ⟨h, rfl⟩, rfl⟩
      · omega
  · next h =>
    constructor
    · intro ht
      cases ht
      exact .inr ⟨by omega, rfl⟩
    · rintro (⟨hn, -⟩ | ⟨-, rfl⟩)
      · omega
      · rfl

/-- Everything that `receive_bit()` can do (R162, R163, R164). -/
theorem receiveBit_ok {p : Params} {s t : State} :
    receiveBit p s = .ok t ↔
      (completesUnit p s = false ∧
        t = { s with shift := shiftIn p s.shift (levelBit (readLine s .data)), bitcnt := nextBitcnt p s }) ∨
      (completesUnit p s = true ∧ s.flen.toNat < p.frameMax ∧
        t = { s with
          fbuf := s.fbuf.write s.flen.toNat (shiftIn p s.shift (levelBit (readLine s .data))),
          flen := s.flen + 1#8, shift := 0#8, bitcnt := 0#3 }) ∨
      (completesUnit p s = true ∧ p.frameMax ≤ s.flen.toNat ∧
        t = { s with fovf := true, shift := 0#8, bitcnt := 0#3 }) := by
  unfold receiveBit
  cases hc : completesUnit p s with
  | false => simp [eq_comm]
  | true =>
    have hb := nextBitcnt_complete (completesUnit_iff.1 hc)
    simp only [if_true, receiveComplete_ok, hb, Bool.true_eq_false, false_and, false_or, true_and]

/-! ### Transmitting -/

/-- Everything that `transmit_complete` can do (R166). -/
theorem transmitComplete_ok {p : Params} {s t : State} :
    transmitComplete p s = .ok t ↔
      (s.txidx.toNat + 1 < s.txlen.toNat ∧ s.txidx.toNat + 1 < p.txMax ∧
        t = { s with txidx := s.txidx + 1#8, txbyte := s.txbuf.read (s.txidx.toNat + 1) }) ∨
      (s.txlen.toNat ≤ s.txidx.toNat + 1 ∧ t = { s with txvalid := false, txdone := true }) := by
  unfold transmitComplete
  split
  · next h =>
    rw [bind_ok]
    simp only [memRead_ok, capacity_txbuf, buf_txbuf]
    constructor
    · rintro ⟨u, ⟨hc, rfl⟩, ht⟩
      cases ht
      exact .inl ⟨h, hc, rfl⟩
    · rintro (⟨-, hc, rfl⟩ | ⟨hn, -⟩)
      · exact ⟨_, ⟨hc, rfl⟩, rfl⟩
      · omega
  · next h =>
    constructor
    · intro ht
      cases ht
      exact .inr ⟨by omega, rfl⟩
    · rintro (⟨hn, -⟩ | ⟨-, rfl⟩)
      · omega
      · rfl

/-- Everything that `transmit_bit()` can do (R165, R166, R167): DATA is written, with the bit or, with no unit in
hand, HIGH; then the counter goes on, and a complete unit is followed up. -/
theorem transmitBit_ok {p : Params} {s t : State} :
    transmitBit p s = .ok t ↔
      ∃ u, writeLine p .data (if s.txvalid then levelOf (wireBit p s.txbyte s.bitcnt.toNat) else .high) s = .ok u ∧
        ((s.txvalid = true ∧ completesUnit p s = false ∧ t = { u with bitcnt := nextBitcnt p s }) ∨
          (s.txvalid = true ∧ completesUnit p s = true ∧ transmitComplete p { u with bitcnt := 0#3 } = .ok t) ∨
          (s.txvalid = false ∧ t = { u with bitcnt := BitVec.ofNat 3 ((s.bitcnt.toNat + 1) % p.bpu) })) := by
  unfold transmitBit
  cases hv : s.txvalid with
  | false =>
    simp only [Bool.false_eq_true, if_false, bind_ok]
    constructor
    · rintro ⟨u, hu, ht⟩
      cases ht
      exact ⟨u, hu, by simp⟩
    · rintro ⟨u, hu, h⟩
      simp only [false_and, false_or, true_and] at h
      exact ⟨u, hu, by rw [h]; rfl⟩
  | true =>
    simp only [if_true, bind_ok]
    have hc : ∀ u : State, completesUnit p s = true →
        ({ u with bitcnt := nextBitcnt p s } : State) = { u with bitcnt := 0#3 } := fun u h => by
      rw [nextBitcnt_complete (completesUnit_iff.1 h)]
    constructor
    · rintro ⟨u, hu, ht⟩
      refine ⟨u, hu, ?_⟩
      split at ht
      · next h => exact .inr (.inl ⟨trivial, h, by rw [← hc u h]; exact ht⟩)
      · next h =>
        cases ht
        exact .inl ⟨trivial, by simpa using h, rfl⟩
    · rintro ⟨u, hu, ⟨-, h, rfl⟩ | ⟨-, h, ht⟩ | ⟨h, -⟩⟩
      · exact ⟨u, hu, by rw [h]; rfl⟩
      · exact ⟨u, hu, by rw [if_pos h, hc u h]; exact ht⟩
      · exact absurd h (by simp)

/-! ### The step -/

/-- Everything that SAMPLE can do where it answers a next state (R161, R267). -/
theorem sampleAt_next {p : Params} {s t : State} :
    sampleAt p s = .next t ↔
      s.ien = true ∧ s.ipend = true ∧
        ((s.tdir = .receiving ∧ receiveBit p (takeInterrupt s) = .ok t) ∨
          (s.tdir = .transmitting ∧ transmitBit p (takeInterrupt s) = .ok t)) := by
  unfold sampleAt interruptEnabled sampleBody
  cases s.ien <;> cases s.ipend <;> cases s.tdir <;> simp [finish_next]

end Sys2Proof.Machine
end

