-- ==== Sys2Proof/Tests/Slice0.lean ====
section
/-! SUPPORT. Tests: the check of WellFormed, one word of every row written out from the spec's encoding, one step of
each instruction against the spec's vectors (95_test_vectors.md), and for every statement with hypotheses a state that
meets them. Expected values are the spec's, never the model's own answers. -/

namespace Sys2Proof.Tests

open Sys2Proof Sys2Proof.Machine

/-! ### Fixtures -/

/-- The frame rule PROTO_FIX of 95_test_vectors.md section 1, used by the vectors only. -/
def protoFix (units : List Byte) (addressed : Bool) : Verdict :=
  if units.length < 2 then .more
  else match (units.getD 1 0#8).toNat with
    | 1 => .reply
    | 2 =>
      if units.length < 3 then .more
      else if units.length < 4 + (units.getD 2 0#8).toNat then .more
      else if units.length = 4 + (units.getD 2 0#8).toNat ∧ units.foldl (· ^^^ ·) 0#8 = 0#8 then .complete
      else .violation
    | 3 => .openEnded
    | _ => if addressed then .violation else .openEnded

/-- The parameters of the vectors: NODE_ADDR = 0x50 and the MELBUS values. -/
def fixture : Params where
  bpu := 8
  nodeAddr := 0x50#8
  bitOrder := .msbFirst
  clkEdge := .rising
  judge := protoFix
  frameMax := 32
  txMax := 32

theorem fixture_valid : fixture.Valid := by
  constructor <;> decide

/-- The first `n` status registers, as the dumps of the vectors show them. -/
def dump (n : Nat) (s : State) : List Nat :=
  (List.range n).map fun k => (statusRegister fixture s (BitVec.ofNat 4 k)).toNat

/-- What a function shows of the next state, if there is one. -/
def seen {α : Type} (f : State → α) : Host.Outcome State Fault Refusal → Option α
  | .next s => some (f s)
  | .fault _ => none
  | .refused _ => none

/-- A frame in progress, BUSY held low by the master: `units` received, `k` of them examined. -/
def frame (units : List Byte) (k : Nat) : State :=
  { State.reset with
    phase := if k = 0 then .addressPhase else .payloadPhase
    addressed := decide (0 < k ∧ units.getD 0 0#8 = 0x50#8)
    ien := true
    fbuf := (units.zipIdx).map fun e => (e.2, e.1)
    flen := BitVec.ofNat 8 units.length
    fproc := BitVec.ofNat 8 k
    extLevel := ⟨.high, .high, .low⟩ }

/-- A clock edge is pending. -/
def edge (s : State) : State := { s with ipend := true }

/-- BUSY has been released by the master. -/
def released (s : State) : State := { s with extLevel := { s.extLevel with busy := .high } }

/-- A response DE AD is enqueued. -/
def queued (s : State) : State :=
  { s with txbuf := [(0, 0xDE#8), (1, 0xAD#8)], txlen := 2#8, txq := true }

/-- The last frame, of one unit, has not been taken. -/
def untaken (s : State) : State :=
  { s with dbuf := [(0, 0x50#8)], dlen := 1#8, frdy := true }

/-- The responding state of program P2 after the turnaround. -/
def responding : State :=
  { queued (frame [0x50#8, 0x01#8] 2) with
    phase := .responding, tdir := .transmitting, txvalid := true, txbyte := 0xDE#8
    dir := ⟨.input, .output, .output⟩, out := ⟨.high, .high, .low⟩
    dbuf := [(0, 0x50#8), (1, 0x01#8)], dlen := 2#8, frdy := true }

/-- A bus master that has sent its address unit 48 and holds the unit 07 (program P4). -/
def master : State :=
  { State.reset with
    phase := .addressPhase, tdir := .transmitting, master := true, ien := true
    dir := ⟨.output, .output, .output⟩, out := ⟨.high, .low, .low⟩
    txbuf := [(0, 0x48#8), (1, 0x07#8)], txlen := 2#8, txq := true, txidx := 1#8, txbyte := 0x07#8, txvalid := true }

/-! ### WellFormed -/

/-- TXPUSH 0x10 has no encoding with BPU = 4 (R92, V42-3). -/
theorem test_wellFormed_refuses_wide_unit : (Instr.txpush 0x10#8).fits 4 = false := by decide

theorem test_wellFormed_accepts_boundary : (Instr.txpush 0x0F#8).fits 4 = true ∧ (Instr.txpush 0xFF#8).fits 8 = true := by
  decide

/-! ### Decoding, from the words of R94, R95 and R98 -/

theorem test_decode_nop : decode 8 0x0000#16 = .ok .nop := by decide
theorem test_decode_setdir : decode 8 0x1201#16 = .ok (.setdir .busy .output) := by decide
theorem test_decode_wrline : decode 8 0x2100#16 = .ok (.wrline .data .low) := by decide
theorem test_decode_rdline : decode 8 0x3000#16 = .ok (.rdline .clock) := by decide
theorem test_decode_ien : decode 8 0x4000#16 = .ok .ien := by decide
theorem test_decode_idis : decode 8 0x4100#16 = .ok .idis := by decide
theorem test_decode_iclr : decode 8 0x4200#16 = .ok .iclr := by decide
theorem test_decode_init : decode 8 0x5000#16 = .ok .init := by decide
theorem test_decode_snoop : decode 8 0x5101#16 = .ok (.snoop true) := by decide
theorem test_decode_claim : decode 8 0x5200#16 = .ok .claim := by decide
theorem test_decode_txpush : decode 8 0x60DE#16 = .ok (.txpush 0xDE#8) := by decide
theorem test_decode_txenq : decode 8 0x6100#16 = .ok .txenq := by decide
theorem test_decode_txclr : decode 8 0x6200#16 = .ok .txclr := by decide
theorem test_decode_rxlen : decode 8 0x7000#16 = .ok .rxlen := by decide
theorem test_decode_rxrd : decode 8 0x7103#16 = .ok (.rxrd 3#8) := by decide
theorem test_decode_rxack : decode 8 0x7200#16 = .ok .rxack := by decide
theorem test_decode_rdsr : decode 8 0x8B00#16 = .ok (.rdsr 11#4) := by decide
theorem test_decode_ext : decode 8 0xE201#16 = .ok (.ext .busy .high) := by decide
theorem test_decode_sample : decode 8 0xF000#16 = .ok .sample := by decide
theorem test_decode_asm : decode 8 0xF100#16 = .ok .asm := by decide
theorem test_decode_reset : decode 8 0xF200#16 = .ok .reset := by decide

/-- The reserved words of V45-5. -/
theorem test_decode_reserved :
    [0x0001#16, 0x1300#16, 0x1002#16, 0x1400#16, 0x3001#16, 0x4300#16, 0x4001#16, 0x5300#16, 0x5102#16, 0x5001#16,
      0x6300#16, 0x6101#16, 0x7300#16, 0x7001#16, 0x8001#16, 0x9000#16, 0xD123#16].all
      (fun w => (decode 8 w).toOption.isNone) = true := by decide

/-- With BPU = 4 the word 0x6010 is reserved and 0x600F is not (V42-3). -/
theorem test_decode_unit_width :
    decode 4 0x6010#16 = .error .unitTooWide ∧ decode 4 0x600F#16 = .ok (.txpush 0x0F#8) := by decide

/-- The host's numbering: one word of 16 bits. -/
theorem test_decodeTableWord : decodeTableWord 16 0x5101 = some (.snoop true) := by decide

/-- A presented word runs as the first instruction after reset: SNOOP ON gives SR0 = 80 (V45-7), and an EXT label
is presented as a label (V41-1). -/
theorem test_withFetchWord :
    seen (dump 1) (step (State.reset.withFetchWord 16 0x5101)) = some [0x80] ∧
    seen (dump 2) (step (State.reset.withFetchWord 16 0xE000)) = some [0x00, 0x00] := by decide

/-! ### One step of each instruction -/

/-- R230. -/
theorem test_nop : seen (dump 3) (execAt fixture .nop State.reset) = some [0x00, 0x40, 0x70] := by decide

/-- V40-1. -/
theorem test_setdir : seen (dump 3) (execAt fixture (.setdir .busy .output) State.reset) = some [0x00, 0x40, 0x74] := by
  decide

/-- V40-5: releasing CLOCK makes a rising edge. -/
theorem test_setdir_edge :
    seen (dump 3) (execAt fixture (.setdir .clock .input)
      { State.reset with dir := ⟨.output, .input, .input⟩, out := ⟨.low, .high, .high⟩, clkPrev := .low }) =
      some [0x00, 0x42, 0x60] := by decide

/-- V40-2. -/
theorem test_wrline :
    seen (fun s => (dump 3 s, wire s .data))
      (execAt fixture (.wrline .data .low) { State.reset with dir := ⟨.input, .output, .input⟩ }) =
      some ([0x00, 0x40, 0x52], .low) := by decide

/-- V40-4. -/
theorem test_wrline_input : execAt fixture (.wrline .data .low) State.reset = .fault .callerMisuse := rfl

/-- V40-3: a read of an OUTPUT line returns OUT, not the wire. -/
theorem test_rdline :
    seen (fun s => (s.rsp, wire s .data)) (execAt fixture (.rdline .data)
      { State.reset with dir := ⟨.input, .output, .input⟩, extLevel := ⟨.high, .low, .high⟩ }) =
      some (0x01#8, .low) := by decide

theorem test_rdline_input :
    seen (fun s => s.rsp) (execAt fixture (.rdline .data) { State.reset with extLevel := ⟨.high, .low, .high⟩ }) =
      some 0x00#8 := by decide

/-- V41-1. -/
theorem test_ien :
    seen (dump 2) (execAt fixture .ien (edge State.reset)) = some [0x00, 0x43] := by decide

/-- V41-3. -/
theorem test_idis : seen (dump 2) (execAt fixture .idis (frame [] 0)) = some [0x01, 0x40] := by decide

/-- V41-2. -/
theorem test_iclr :
    seen (dump 2) (execAt fixture .iclr { edge State.reset with ien := true }) = some [0x00, 0x41] := by decide

/-- V45-6: INIT in mid-response. -/
theorem test_init :
    seen (fun s => (dump 16 s, s.rsp, wire s .busy)) (execAt fixture .init responding) =
      some ([0x00, 0x40, 0x70, 0, 0, 0, 0, 0, 0, 0, 0, 0, 0x50, 0x08, 0x20, 0x20], 0x00#8, .low) := by decide

/-- V45-7. -/
theorem test_snoop : seen (dump 1) (execAt fixture (.snoop true) State.reset) = some [0x80] := by decide

/-- V45-9, with the response DE AD. -/
theorem test_claim :
    seen (fun s => (dump 12 s, s.rsp)) (execAt fixture .claim (queued State.reset)) =
      some ([0x55, 0x51, 0x36, 0, 0, 0, 0, 0, 2, 0, 0xDE, 0], 0x01#8) := by decide

/-- V45-9: nothing enqueued. -/
theorem test_claim_refused : seen (fun s => s.rsp) (execAt fixture .claim State.reset) = some 0x00#8 := by decide

/-- V45-2. -/
theorem test_txpush :
    seen (fun s => (s.rsp, s.txlen, s.txbuf.read 1))
      (execAt fixture (.txpush 0xAD#8) { State.reset with txbuf := [(0, 0xDE#8)], txlen := 1#8 }) =
      some (0x01#8, 2#8, 0xAD#8) := by decide

/-- V45-3: TX_MAX = 2. -/
theorem test_txpush_full :
    seen (fun s => (s.rsp, s.txlen))
      (execAt { fixture with txMax := 2 } (.txpush 3#8) { queued State.reset with txq := false }) =
      some (0x00#8, 2#8) := by decide

/-- V45-2. -/
theorem test_txenq :
    seen (fun s => (s.rsp, dump 1 s)) (execAt fixture .txenq { queued State.reset with txq := false }) =
      some (0x01#8, [0x40]) := by decide

/-- V45-2. -/
theorem test_txclr :
    seen (fun s => (s.rsp, s.txq, s.txlen)) (execAt fixture .txclr (queued State.reset)) =
      some (0x01#8, false, 0#8) := by decide

/-- V45-6: the frame is on the wire. -/
theorem test_txclr_refused :
    seen (fun s => (s.rsp, dump 9 s)) (execAt fixture .txclr responding) =
      some (0x00#8, [0x6F, 0x51, 0x36, 0, 0, 2, 2, 2, 2]) := by decide

/-- Program P2. -/
theorem test_rxlen : seen (fun s => s.rsp) (execAt fixture .rxlen responding) = some 0x02#8 := by decide

theorem test_rxrd :
    seen (fun s => s.rsp) (execAt fixture (.rxrd 0#8) responding) = some 0x50#8 ∧
    seen (fun s => s.rsp) (execAt fixture (.rxrd 2#8) responding) = some 0x00#8 := by decide

theorem test_rxack :
    seen (fun s => (s.rsp, dump 8 s)) (execAt fixture .rxack responding) =
      some (0x01#8, [0x4F, 0x51, 0x36, 0, 0, 2, 2, 0]) := by decide

/-- V45-1. -/
theorem test_rdsr :
    seen (fun s => s.rsp) (execAt fixture (.rdsr 13#4) State.reset) = some 0x08#8 ∧
    seen (fun s => s.rsp) (execAt fixture (.rdsr 2#4) State.reset) = some 0x70#8 := by decide

/-- V41-4: a second edge with IEN = 1 is lost. -/
theorem test_ext :
    seen (fun s => (s.ipend, s.elost)) (execAt fixture (.ext .clock .high)
      { edge State.reset with ien := true, clkPrev := .low, extLevel := ⟨.low, .high, .high⟩ }) =
      some (true, true) := by decide

/-- V41-5: CLK_EDGE = FALLING. -/
theorem test_ext_falling :
    seen (dump 2) (execAt { fixture with clkEdge := .falling } (.ext .clock .low) State.reset) = some [0x00, 0x02] := by
  decide

/-- V42-1: the eighth bit of A5. -/
theorem test_sample_receives :
    seen (fun s => (dump 7 s, s.fbuf.read 0)) (execAt fixture .sample
      (edge { frame [] 0 with shift := 0x52#8, bitcnt := 7#3 })) =
      some ([0x01, 0x41, 0x70, 0, 0, 1, 0], 0xA5#8) := by decide

/-- V42-5: the third bit of DE is 0. -/
theorem test_sample_transmits :
    seen (fun s => (dump 4 s, wire s .data)) (execAt fixture .sample (edge { responding with bitcnt := 2#3 })) =
      some ([0x6F, 0x51, 0x16, 0x03], .low) := by decide

/-- V43-3: a complete frame is delivered. -/
theorem test_asm_delivers :
    seen (fun s => (dump 8 s, s.dbuf.read 3)) (execAt fixture .asm
      (frame [0x50#8, 0x02#8, 0x01#8, 0xAA#8, 0xF9#8] 4)) =
      some ([0x20, 0x40, 0x70, 0, 0, 0, 0, 5], 0xAA#8) := by decide

/-- Program P2: the turnaround. -/
theorem test_asm_turnaround :
    seen (dump 12) (execAt fixture .asm (queued (frame [0x50#8, 0x01#8] 1))) =
      some [0x6F, 0x51, 0x36, 0, 0, 2, 2, 2, 2, 0, 0xDE, 0] := by decide

/-- V70-3: reset with CLOCK low. -/
theorem test_reset :
    seen (dump 3) (execAt fixture .reset { responding with extLevel := ⟨.low, .high, .high⟩ }) =
      some [0x00, 0x00, 0x70] := by decide

/-- Step 8 of program P4: after the frame the host gives CLOCK back, and may do no more with it (R127, log 19). -/
theorem test_hostMay_restores_clock :
    let s : State := { State.reset with dir := ⟨.output, .input, .input⟩ }
    hostMay s (.setdir .clock .input) = true ∧ hostMay s (.wrline .clock .low) = false ∧
    hostMay State.reset (.setdir .clock .output) = false ∧ hostMay master (.wrline .clock .low) = true ∧
    hostMay master (.setdir .busy .input) = false := by decide

/-! ### Witnesses: for each statement with hypotheses, states and operands that meet them -/

theorem witness_DecodeEncodeAgree : (Instr.txpush 0xFF#8).fits 8 = true ∧ (Instr.rdsr 15#4).fits 1 = true := by decide

theorem witness_EncodeDecodeAgree : decode 4 0x600F#16 = .ok (.txpush 0x0F#8) ∧ decode 8 0x71FF#16 = .ok (.rxrd 0xFF#8) := by
  decide

theorem witness_StepRunsTheDecodedInstruction :
    (decode Config.params.bpu 0x5101#16 = .ok (.snoop true) ∧ (Instr.snoop true).isLabel = false ∧
      ({ State.reset with pending := [.port 0x5101#16] } : State).pending = .port 0x5101#16 :: []) ∧
    (decode Config.params.bpu 0xF100#16 = .ok .asm ∧ Instr.asm.isLabel = true ∧
      ({ State.reset with pending := [.label 0xF100#16, .port 0#16] } : State).pending =
        .label 0xF100#16 :: [.port 0#16]) := by decide

theorem witness_ReservedWordIsIgnored_reserved :
    ({ State.reset with pending := [.port 0x9000#16] } : State).pending = .port 0x9000#16 :: [] ∧
    ∃ e, decode Config.params.bpu 0x9000#16 = .error e := ⟨by decide, .majorOpcode, by decide⟩

theorem witness_ReservedWordIsIgnored_label :
    ({ State.reset with pending := [.port 0xF000#16] } : State).pending = .port 0xF000#16 :: [] ∧
    ∃ i, decode Config.params.bpu 0xF000#16 = .ok i ∧ i.isLabel = true := ⟨by decide, .sample, by decide⟩

theorem witness_ScheduleConventions_empty : State.reset.pending = [] := rfl

theorem witness_ScheduleConventions_noLabel :
    ({ State.reset with pending := [.label 0x5100#16] } : State).pending = .label 0x5100#16 :: [] ∧
    ∀ i, decode Config.params.bpu 0x5100#16 = .ok i → i.isLabel = false := by
  refine ⟨by decide, fun i h => ?_⟩
  have : decode Config.params.bpu 0x5100#16 = .ok (.snoop false) := by decide
  cases this.symm.trans h
  rfl

/-- SETDIR: each clause, with the wires as they stand and with a latch that pulls. -/
theorem witness_SetdirResult :
    State.reset.out.get .data = .high ∧ State.reset.dir.get .data = .input ∧
    State.reset.clkPrev = wire State.reset .clock ∧ responding.out.get .busy = .low ∧
    responding.dir.get .busy = .output := by decide

theorem witness_WrlineResult :
    State.reset.dir.get .data = .input ∧ responding.dir.get .data = .output ∧
    responding.out.get .data = .high ∧ responding.clkPrev = wire responding .clock := by decide

theorem witness_RdlineResult : responding.dir.get .clock = .input ∧ responding.dir.get .busy = .output := by decide

theorem witness_ExtResult :
    responding.extLevel.get .busy = .low ∧ responding.clkPrev = wire responding .clock := by decide

/-- An active edge, with IPEND = 0, with IPEND = 1 and IEN = 1, with IPEND = 1 and IEN = 0; and no active edge. -/
theorem witness_EdgeDetectResult :
    let s : State := { State.reset with clkPrev := .low }
    fixture.clkEdge = .rising ∧ s.clkPrev = .low ∧ wire s .clock = .high ∧ s.ipend = false ∧
    (edge s).ipend = true ∧ ({ edge s with ien := true } : State).ien = true ∧ (edge s).ien = false ∧
    State.reset.clkPrev = .high := by decide

theorem witness_SampleReceiveResult :
    let s := edge (frame [] 0)
    let full : State := { s with bitcnt := 7#3, flen := 32#8 }
    let last : State := { s with bitcnt := 7#3, flen := 31#8 }
    s.ien = true ∧ s.ipend = true ∧ s.tdir = .receiving ∧ s.bitcnt ≠ 7#3 ∧ s.fbuf.wf 32 = true ∧
    last.bitcnt = 7#3 ∧ last.flen.toNat < 32 ∧ last.fbuf.wf 32 = true ∧ full.bitcnt = 7#3 ∧ 32 ≤ full.flen.toNat := by
  decide

theorem witness_SampleTransmitResult :
    let s := edge responding
    let next : State := { s with bitcnt := 7#3 }
    let last : State := { s with bitcnt := 7#3, txidx := 1#8 }
    s.ien = true ∧ s.ipend = true ∧ s.tdir = .transmitting ∧ s.txvalid = true ∧ s.dir.data = .output ∧
    s.clkPrev = wire s .clock ∧ s.txlen.toNat ≤ 32 ∧ s.bitcnt ≠ 7#3 ∧
    next.txidx.toNat + 1 < next.txlen.toNat ∧ last.txlen.toNat ≤ last.txidx.toNat + 1 := by decide

theorem witness_SampleUnderflowHold :
    let s : State := { edge responding with txvalid := false, txdone := true }
    fixture.Valid ∧ s.ien = true ∧ s.ipend = true ∧ s.tdir = .transmitting ∧ s.txvalid = false ∧
    s.dir.data = .output ∧ s.clkPrev = wire s .clock := ⟨fixture_valid, by decide⟩

/-- SAMPLE not enabled, DATA an input while transmitting, and that fault with TXLEN at the capacity. -/
theorem witness_SampleStops :
    let s : State := { edge responding with dir := ⟨.input, .input, .output⟩ }
    let full : State := { s with txlen := 32#8 }
    (State.reset.ien = false ∧ s.ien = true ∧ s.ipend = true ∧ s.tdir = .transmitting ∧ s.dir.data = .input ∧
      full.txlen.toNat ≤ 32) ∧ exec .sample full = .fault .callerMisuse := ⟨by decide, rfl⟩

theorem witness_SamplerReconstructsTheUnit :
    let s : State := { frame [] 0 with flen := 31#8 }
    fixture.Valid ∧ (0xFF#8).toNat < 2 ^ fixture.bpu ∧ s.ien = true ∧ s.ipend = false ∧ s.tdir = .receiving ∧
    s.dir.clock = .input ∧ s.dir.data = .input ∧ s.bitcnt = 0#3 ∧ s.shift = 0#8 ∧ s.flen.toNat < fixture.frameMax ∧
    s.fbuf.wf fixture.frameMax = true ∧ clockSeen s :=
  ⟨fixture_valid, by decide, by decide, by decide, by decide, by decide, by decide, by decide, by decide, by decide,
    by decide, rfl⟩

theorem witness_TransmitReceiveRoundTrip :
    let a := responding
    let b : State := { frame [] 0 with flen := 30#8 }
    fixture.Valid ∧ a.ien = true ∧ a.ipend = false ∧ a.tdir = .transmitting ∧ a.dir.clock = .input ∧
    a.dir.data = .output ∧ a.extLevel.data = .high ∧ a.bitcnt = 0#3 ∧ a.txvalid = true ∧ a.txidx = 0#8 ∧
    a.txbyte = a.txbuf.read 0 ∧ 1 ≤ a.txlen.toNat ∧ a.txlen.toNat ≤ fixture.txMax ∧
    (∀ j, (a.txbuf.read j).toNat < 2 ^ fixture.bpu) ∧
    b.ien = true ∧ b.ipend = false ∧ b.tdir = .receiving ∧ b.dir.clock = .input ∧ b.dir.data = .input ∧
    b.bitcnt = 0#3 ∧ b.shift = 0#8 ∧ b.flen.toNat + a.txlen.toNat ≤ fixture.frameMax ∧
    b.fbuf.wf fixture.frameMax = true :=
  ⟨fixture_valid, by decide, by decide, by decide, by decide, by decide, by decide, by decide, by decide, by decide,
    by decide, by decide, by decide, fun j => (Memory.read _ j).isLt, by decide⟩

theorem witness_SampleWritesOnly :
    (edge responding).clkPrev = wire (edge responding) .clock ∧
    (seen (fun _ => ()) (execAt fixture .sample (edge responding))).isSome = true := by decide

theorem witness_AsmIdleResult :
    let low : State := { State.reset with extLevel := ⟨.high, .high, .low⟩ }
    let start : State := { low with busyLast := .high }
    State.reset.phase = .idle ∧ readLine State.reset .busy = .high ∧ readLine start .busy = .low ∧
    start.busyLast = .high ∧ readLine low .busy = .low ∧ low.busyLast = .low := by decide

theorem witness_AsmWhileTransmitting :
    master.phase = .addressPhase ∧ master.txdone = false ∧ master.master = true ∧ 1 ≤ master.txidx.toNat ∧
    ({ master with txidx := 0#8 } : State).txidx = 0#8 ∧
    responding.phase = .responding ∧ responding.txdone = false ∧ responding.master = false := by decide

theorem witness_AsmEndsTransmission :
    let s : State := { responding with txdone := true, txvalid := false }
    let m : State := { master with txdone := true, txvalid := false, phase := .payloadPhase, clkPrev := .high, out := ⟨.high, .high, .low⟩ }
    s.phase = .responding ∧ s.txdone = true ∧ s.dir.data = .output ∧ s.dir.busy = .output ∧
    s.clkPrev = wire s .clock ∧ m.phase ≠ .idle ∧ m.master = true ∧ m.txdone = true ∧ m.dir.data = .output ∧
    m.dir.busy = .output ∧ m.clkPrev = wire m .clock := by decide

theorem witness_AsmWaitsForTheNextUnit :
    let s := frame [0x50#8] 1
    s.phase = .payloadPhase ∧ s.master = false ∧ s.fproc = s.flen ∧ s.fovf = false ∧ readLine s .busy = .low := by decide

theorem witness_AsmDropsForeignFrame :
    let s := frame [0x48#8] 0
    fixture.Valid ∧ s.phase = .addressPhase ∧ s.master = false ∧ s.fproc.toNat < s.flen.toNat ∧
    s.fbuf.read 0 ≠ fixture.nodeAddr ∧ s.snoop = false := ⟨fixture_valid, by decide⟩

/-- The address unit with two more to examine and BUSY released (verdict MORE, V43-13), a last unit (OPEN) with BUSY low
and with an overflow, and a REPLY verdict for another node's frame (V43-14). -/
theorem witness_AsmAccumulatesUnit :
    let s := released (frame [0x50#8, 0x03#8, 0xA5#8] 0)
    let u := frame [0x50#8, 0x03#8] 1
    let o : State := { u with fovf := true }
    let w : State := { frame [0x48#8, 0x01#8] 1 with snoop := true }
    fixture.Valid ∧
    (s.phase = .addressPhase ∧ s.master = false ∧ s.fproc.toNat < s.flen.toNat ∧ s.flen.toNat ≤ fixture.frameMax ∧
      s.fbuf.read 0 = fixture.nodeAddr ∧ readLine s .busy = .high ∧
      fixture.judge (unitsExamined (examined fixture s)) (examined fixture s).addressed = .more) ∧
    (u.phase = .payloadPhase ∧ u.master = false ∧ u.fproc.toNat + 1 = u.flen.toNat ∧ u.fovf = false ∧
      readLine u .busy = .low ∧ o.fovf = true ∧
      fixture.judge (unitsExamined (examined fixture u)) (examined fixture u).addressed = .openEnded ∧
      fixture.judge (unitsExamined (examined fixture o)) (examined fixture o).addressed = .openEnded) ∧
    (w.phase = .payloadPhase ∧ w.fproc.toNat + 1 = w.flen.toNat ∧
      fixture.judge (unitsExamined (examined fixture w)) (examined fixture w).addressed = .reply ∧
      (examined fixture w).addressed = false) := ⟨fixture_valid, by decide⟩

theorem witness_AsmDeliversCompleteFrame :
    let s := frame [0x50#8, 0x02#8, 0x01#8, 0xAA#8, 0xF9#8] 4
    fixture.Valid ∧ s.phase = .payloadPhase ∧ s.master = false ∧ s.fproc.toNat < s.flen.toNat ∧
    s.flen.toNat ≤ fixture.frameMax ∧ s.dbuf.wf fixture.frameMax = true ∧
    fixture.judge (unitsExamined (examined fixture s)) (examined fixture s).addressed = .complete ∧
    s.frdy = false ∧ (untaken s).frdy = true ∧ (untaken s).dbuf.wf fixture.frameMax = true := ⟨fixture_valid, by decide⟩

theorem witness_AsmDiscardsViolation :
    let s := frame [0x50#8, 0x07#8] 1
    fixture.Valid ∧ s.phase = .payloadPhase ∧ s.master = false ∧ s.fproc.toNat < s.flen.toNat ∧
    s.flen.toNat ≤ fixture.frameMax ∧
    fixture.judge (unitsExamined (examined fixture s)) (examined fixture s).addressed = .violation :=
  ⟨fixture_valid, by decide⟩

/-- A whole command, and one whose later units were sampled before the turnaround (R203). -/
theorem witness_AsmBeginsResponse :
    let s := queued (frame [0x50#8, 0x01#8, 0xFF#8] 1)
    fixture.Valid ∧ s.phase = .payloadPhase ∧ s.master = false ∧ s.fproc.toNat < s.flen.toNat ∧
    s.flen.toNat ≤ fixture.frameMax ∧ s.dbuf.wf fixture.frameMax = true ∧ s.addressed = true ∧ s.txq = true ∧
    s.clkPrev = wire s .clock ∧ fixture.judge (unitsExamined (examined fixture s)) true = .reply ∧
    s.frdy = false ∧ (untaken s).frdy = true := ⟨fixture_valid, by decide⟩

theorem witness_AsmStaysSilent :
    let s := frame [0x50#8, 0x01#8] 1
    fixture.Valid ∧ s.phase = .payloadPhase ∧ s.master = false ∧ s.fproc.toNat < s.flen.toNat ∧
    s.flen.toNat ≤ fixture.frameMax ∧ s.dbuf.wf fixture.frameMax = true ∧ s.addressed = true ∧ s.txq = false ∧
    fixture.judge (unitsExamined (examined fixture s)) true = .reply ∧ s.frdy = false ∧ (untaken s).frdy = true :=
  ⟨fixture_valid, by decide⟩

/-- An overflow, a release in the middle of a unit, a release after units judged MORE and after a REPLY that this node
owes, a pulse with no bit. -/
theorem witness_AsmDiscardsTruncatedFrame :
    let s := released (frame [0x50#8, 0x02#8] 2)
    let o : State := { s with fovf := true }
    let h : State := { s with bitcnt := 3#3 }
    let n := released (frame [] 0)
    let r := released (frame [0x50#8, 0x01#8] 2)
    fixture.Valid ∧ s.phase = .payloadPhase ∧ s.master = false ∧ s.fproc = s.flen ∧ s.flen.toNat ≤ fixture.frameMax ∧
    o.fovf = true ∧ s.fovf = false ∧ readLine s .busy = .high ∧ h.bitcnt ≠ 0#3 ∧ s.bitcnt = 0#3 ∧ s.fproc ≠ 0#8 ∧
    fixture.judge (unitsExamined s) s.addressed ≠ .openEnded ∧
    ¬(fixture.judge (unitsExamined s) s.addressed = .reply ∧ s.addressed = false) ∧
    r.phase = .payloadPhase ∧ r.fproc = r.flen ∧ fixture.judge (unitsExamined r) r.addressed = .reply ∧
    r.addressed = true ∧
    n.phase = .addressPhase ∧ n.fproc = n.flen ∧ n.fproc = 0#8 ∧ readLine n .busy = .high ∧ n.bitcnt = 0#3 :=
  ⟨fixture_valid, by decide⟩

/-- A frame judged OPEN, and another node's frame judged REPLY (V43-14). -/
theorem witness_AsmDeliversOpenFrame :
    let s := released (frame [0x50#8, 0x03#8, 0xA5#8] 3)
    let w : State := { released (frame [0x48#8, 0x01#8, 0x77#8] 3) with snoop := true }
    fixture.Valid ∧ s.phase = .payloadPhase ∧ s.master = false ∧ s.fproc = s.flen ∧ s.flen.toNat ≤ fixture.frameMax ∧
    s.fproc ≠ 0#8 ∧ s.bitcnt = 0#3 ∧ s.fovf = false ∧ s.dbuf.wf fixture.frameMax = true ∧ readLine s .busy = .high ∧
    fixture.judge (unitsExamined s) s.addressed = .openEnded ∧ s.frdy = false ∧ (untaken s).frdy = true ∧
    w.phase = .payloadPhase ∧ w.master = false ∧ w.fproc = w.flen ∧ w.fproc ≠ 0#8 ∧ readLine w .busy = .high ∧
    fixture.judge (unitsExamined w) w.addressed = .reply ∧ w.addressed = false :=
  ⟨fixture_valid, by decide⟩

theorem witness_AsmWritesOnly :
    let s := queued (frame [0x50#8, 0x01#8] 1)
    s.clkPrev = wire s .clock ∧ (seen (fun _ => ()) (execAt fixture .asm s)).isSome = true := by decide

theorem witness_ClaimResult :
    let s := queued State.reset
    s.phase = .idle ∧ s.dir.busy = .input ∧ s.extLevel.busy = .high ∧ s.txq = true ∧ s.clkPrev = wire s .clock ∧
    master.phase ≠ .idle ∧ responding.dir.busy = .output ∧ (frame [] 0).extLevel.busy = .low ∧
    State.reset.txq = false := by decide

theorem witness_TxpushResult :
    let s : State := { State.reset with txlen := 31#8 }
    s.txq = false ∧ s.txlen.toNat < 32 ∧ s.txbuf.wf 32 = true ∧ (queued s).txq = true ∧
    32 ≤ ({ s with txlen := 32#8 } : State).txlen.toNat := by decide

theorem witness_TxenqTxclrResult :
    let s : State := { queued State.reset with txq := false }
    s.txq = false ∧ s.txlen ≠ 0#8 ∧ (queued s).txq = true ∧ State.reset.txlen = 0#8 ∧ s.tdir = .receiving ∧
    responding.tdir = .transmitting := by decide

theorem witness_DeliveredFrameCommands :
    responding.frdy = true ∧ (1#8).toNat < responding.dlen.toNat ∧ responding.dlen.toNat ≤ 32 ∧
    State.reset.frdy = false ∧ responding.dlen.toNat ≤ (2#8).toNat := by decide

theorem witness_FieldStatusRegisters :
    fixture.Valid ∧ 4 ≤ (4#4).toNat ∧ (4#4).toNat ≤ 10 ∧ (10#4).toNat ≤ 10 := ⟨fixture_valid, by decide⟩

/-- The responding state of program P2 has the invariants of R58. -/
theorem responding_blockInv : BlockInv fixture responding := by
  constructor <;> first | decide | (unfold ownsFrame; decide)

/-- A bus master has the invariants of R58. -/
theorem master_blockInv : BlockInv fixture master := by
  constructor <;> first | decide | (unfold ownsFrame; decide)

/-- The same for the parameters of `step`, in a state with an ASM label presented. -/
theorem witness_StepKeepsBlockInv_step :
    let s : State := { responding with pending := [.label 0xF100#16] }
    BlockInv Config.params s ∧
    (∀ e rest i, s.pending = e :: rest → fetch Config.params e = .run i → drivesBusLine i = false) ∧
    (seen (fun _ => ()) (step s)).isSome = true := by
  refine ⟨by constructor <;> first | decide | (unfold ownsFrame; decide), fun e rest i h hf => ?_, by decide⟩
  cases h
  have : fetch Config.params (.label 0xF100#16) = .run .asm := by decide
  cases this.symm.trans hf
  rfl

theorem witness_StepKeepsBlockInv :
    fixture.Valid ∧ BlockInv fixture responding ∧ drivesBusLine .asm = false ∧
    (seen (fun _ => ()) (execAt fixture .asm responding)).isSome = true :=
  ⟨fixture_valid, responding_blockInv, by decide⟩

theorem witness_ResetMeetsInvariants : fixture.Valid := fixture_valid

/-- IDLE with BUSY seen high and now low: ASM starts a frame. -/
theorem witness_StepKeepsIdleQuiet :
    let s : State := { State.reset with busyLast := .high, extLevel := ⟨.high, .high, .low⟩ }
    IdleQuiet s ∧ s.phase = .idle ∧ Instr.asm ≠ .ien ∧
    (seen (fun _ => ()) (execAt fixture .asm s)).isSome = true :=
  ⟨by constructor <;> decide, by decide⟩

theorem witness_StepKeepsBuffersWf :
    BuffersWf fixture responding ∧ (seen (fun _ => ()) (execAt fixture .rxack responding)).isSome = true ∧
    BuffersWf Config.params responding ∧ (seen (fun _ => ()) (step responding)).isSome = true :=
  ⟨by constructor <;> decide, by decide, by constructor <;> decide, by decide⟩

theorem witness_StepKeepsClockSeen :
    clockSeen responding ∧ (seen (fun _ => ()) (execAt fixture (.ext .clock .low) responding)).isSome = true ∧
    (seen (fun _ => ()) (step { responding with pending := [.label 0xE000#16] })).isSome = true :=
  ⟨rfl, by decide⟩

/-- SAMPLE where it is enabled, and WRLINE to CLOCK as an OUTPUT. -/
theorem witness_EngineNeverFaults :
    fixture.Valid ∧ BlockInv fixture (edge responding) ∧ drivesBusLine .sample = false ∧
    (edge responding).ien = true ∧ (edge responding).ipend = true ∧
    BlockInv fixture master ∧ drivesBusLine (.wrline .clock .low) = false ∧ master.dir.clock = .output := by
  refine ⟨fixture_valid, ?_, by decide, by decide, by decide, master_blockInv, by decide⟩
  constructor <;> first | decide | (unfold ownsFrame; decide)

/-- IDLE to ADDRESS_PHASE, ADDRESS_PHASE to PAYLOAD_PHASE, PAYLOAD_PHASE to RESPONDING, and back to IDLE. -/
theorem witness_PhaseTransitions :
    seen State.phase (execAt fixture .claim (queued State.reset)) = some .addressPhase ∧
    seen State.phase (execAt fixture .asm (frame [0x50#8] 0)) = some .payloadPhase ∧
    seen State.phase (execAt fixture .asm (queued (frame [0x50#8, 0x01#8] 1))) = some .responding ∧
    seen State.phase (execAt fixture .asm (frame [0x50#8, 0x07#8] 1)) = some .idle := by decide

/-- Another node's frame in PAYLOAD_PHASE, and before its address unit is examined, snooping. -/
theorem witness_ObserverStaysSilent :
    let s := queued (frame [0x48#8, 0x01#8] 1)
    let a : State := { queued (frame [0x48#8] 0) with snoop := true }
    (s.phase = .payloadPhase ∧ s.master = false ∧ s.addressed = false ∧
      seen State.phase (execAt fixture .asm s) = some .payloadPhase) ∧
    (a.phase = .addressPhase ∧ a.master = false ∧ a.fbuf.read 0 ≠ fixture.nodeAddr ∧
      seen State.phase (execAt fixture .asm a) = some .payloadPhase) := by decide

theorem witness_StoresTouchOnlyTheirUnits :
    (seen (fun _ => ()) (execAt fixture (.txpush 0xDE#8) { State.reset with txlen := 31#8 })).isSome = true ∧
    (30 : Nat) ≠ 31 := by decide

theorem witness_DeliveredFrameIsKept :
    let s := untaken (frame [0x50#8, 0x02#8, 0x01#8, 0xAA#8, 0xF9#8] 4)
    s.frdy = true ∧ (seen (fun _ => ()) (execAt fixture .asm s)).isSome = true := by decide

/-- The frame enqueued and kept by TXPUSH, withdrawn by TXCLR, and gone once it has been sent. -/
theorem witness_EnqueuedFrameIsKept :
    (queued State.reset).txq = true ∧
    seen State.txq (execAt fixture (.txpush 1#8) (queued State.reset)) = some true ∧
    seen State.txq (execAt fixture .txclr (queued State.reset)) = some false ∧
    seen State.txq (execAt fixture .asm { responding with txdone := true }) = some false := by decide

theorem witness_DiagBitsAreSticky :
    let s : State := { responding with elost := true, fdisc := true, fdrop := true, noreply := true }
    s.elost = true ∧ s.fdisc = true ∧ s.fdrop = true ∧ s.noreply = true ∧
    (seen (fun _ => ()) (execAt fixture .asm s)).isSome = true := by decide

theorem witness_DiagBitsChangeNothing : Instr.asm ≠ .rdsr 11#4 ∧ Instr.rdsr 1#4 ≠ .rdsr 11#4 := by decide

/-- The state after a step of the configured instance, for the run below. -/
def after (i : Instr) (s : State) : State := (seen id (exec i s)).getD s

/-- The run that takes a list of steps. -/
def runOf : State → List Instr → List Event
  | _, [] => []
  | s, i :: is => ⟨s, i, after i s⟩ :: runOf (after i s) is

/-- The end of a sent unit owes no ASM pass, that of the last one does (program P2, step 10; R75, C6). -/
theorem test_prompt_sent_units :
    let s : State := { edge responding with bitcnt := 7#3 }
    let last : State := { s with txidx := 1#8 }
    let pulse : List Instr := [.ext .clock .low, .ext .clock .high]
    promptAssembled fixture false (runOf s (.sample :: pulse)) = true ∧
    promptAssembled fixture false (runOf last (.sample :: pulse)) = false ∧
    promptAssembled fixture false (runOf last (.sample :: .asm :: pulse)) = true := by decide

/-- A received unit owes an ASM pass, and so does one that finds FBUF full (R164). -/
theorem test_prompt_received_units :
    let s : State := { edge (frame [] 0) with bitcnt := 7#3 }
    let pulse : List Instr := [.ext .clock .low, .ext .clock .high]
    promptAssembled fixture false (runOf s (.sample :: pulse)) = false ∧
    promptAssembled fixture false (runOf { s with flen := 32#8 } (.sample :: pulse)) = false := by decide

/-- Two bits of a frame, each sampled. -/
theorem witness_PromptRunNeverSetsElost :
    let es := runOf (frame [] 0) [.ext .clock .low, .ext .clock .high, .sample, .ext .clock .low, .ext .clock .high]
    isRun (frame [] 0) es ∧ clockSeen (frame [] 0) ∧ (frame [] 0).ipend = false ∧ (∀ e ∈ es, e.instr ≠ .ien) ∧
    promptServed Config.params false es = true ∧ (frame [] 0).elost = false :=
  ⟨⟨rfl, rfl, rfl, rfl, rfl, rfl, rfl, rfl, rfl, rfl, trivial⟩, rfl, rfl, by decide, by decide, rfl⟩

/-- Two nodes with an enqueued frame on an idle bus (V70-7): the first claim is accepted. -/
theorem witness_SecondClaimIsRefused :
    let b : Bus := ⟨[⟨fixture, queued State.reset⟩, ⟨fixture, queued State.reset⟩], ⟨.high, .high, .high⟩⟩
    ∃ b' n m, (0 : Nat) ≠ 1 ∧ b.step (.node 0 .claim) = some b' ∧ b'.nodes[0]? = some n ∧ n.state.rsp = 0x01#8 ∧
      b'.nodes[1]? = some m :=
  ⟨_, _, _, by decide, rfl, rfl, rfl, rfl⟩

end Sys2Proof.Tests
end

section
/-! PROOFS. The scope of the model: the configured instance, and the edge detector of every instance. -/

namespace Sys2Proof.Machine

/-! ### The configured instance -/

/-- The open NODE_ADDR needs no assumption: BPU is 8, the width of a cell (R10, R11). -/
theorem config_params_valid : Config.params.Valid where
  bpu_pos := by decide
  bpu_le := by decide
  nodeAddr_lt := Config.nodeAddr.isLt
  frameMax_pos := by decide
  frameMax_le := by decide
  txMax_pos := by decide
  txMax_le := by decide

/-- Each arm of `exec` runs the operation of the same arm of `execAt`, at the parameters of Config. -/
theorem exec_eq_execAt (i : Instr) (s : State) : exec i s = execAt Config.params i s := by
  cases i <;> rfl

/-- Settles O8: the parameters are in their ranges, and `exec` agrees with `execAt` arm by arm. -/
theorem execIsTheConfiguredInstance : Obligations.ExecIsTheConfiguredInstance :=
  ⟨config_params_valid, exec_eq_execAt⟩

/-! ### The edge detector -/

/-- The active edge is the rise or the fall of the wire that CLK_EDGE selects (R13). -/
theorem activeEdge_iff {e : ClkEdge} {prev now : Level} :
    activeEdge e prev now = true ↔
      (e = .rising ∧ prev = .low ∧ now = .high) ∨ (e = .falling ∧ prev = .high ∧ now = .low) := by
  cases e <;> simp [activeEdge]

/-- A first active edge becomes pending, whether or not IEN is set (R141). -/
theorem edgeDetect_first {p : Params} {s : State} (ha : edgeFound p s = true) (hi : s.ipend = false) :
    edgeDetect p s = { s with ipend := true, clkPrev := wire s .clock } := by
  simp [edgeDetect_eq, ha, hi]

/-- An active edge while another is pending is recorded as lost exactly where IEN is set (R141). -/
theorem edgeDetect_second {p : Params} {s : State} (ha : edgeFound p s = true) (hi : s.ipend = true) :
    edgeDetect p s = { s with elost := s.elost || s.ien, clkPrev := wire s .clock } := by
  simp [edgeDetect_eq, ha, hi]

/-- Without an active edge the detector only remembers the wire (R141). -/
theorem edgeDetect_noEdge {p : Params} {s : State} (ha : edgeFound p s = false) :
    edgeDetect p s = { s with clkPrev := wire s .clock } := by
  simp [edgeDetect_eq, ha]

/-- Settles O14, by the cases of R141: a first active edge, a second one with IEN set or clear, no active edge. -/
theorem edgeDetectResult : Obligations.EdgeDetectResult := by
  intro p s c active
  have found : edgeFound p s = true ↔ active := activeEdge_iff
  refine ⟨fun ha hi => ?first, fun ha hi hen => ?lost, fun ha hi hen => ?unrecorded, fun ha => ?noEdge⟩
  case first => exact edgeDetect_first (found.2 ha) hi
  case lost => rw [edgeDetect_second (found.2 ha) hi, hen, Bool.or_true]
  case unrecorded => rw [edgeDetect_second (found.2 ha) hi, hen, Bool.or_false]
  case noEdge => exact edgeDetect_noEdge (Bool.eq_false_iff.2 (mt found.1 ha))

end Sys2Proof.Machine
end

section
/-! PROOFS. What a step can do, whatever the parameters: the two ways to take the bus, the units and the cases of ASM
packaged as one rule, and `step`. -/

namespace Sys2Proof.Machine

/-! ### Where the procedures stop -/

/-- A response does not begin where TXBUF has no cell (R194, R60). -/
theorem beginResponse_stops {p : Params} (h : p.txMax = 0) (s : State) :
    beginResponse p s = .error .bufferBounds := by
  simp [beginResponse, takeBusy, bind, Except.bind, memRead, h]

/-- CLAIM does not take the bus where TXBUF has no cell (R236, R60). -/
theorem claimBus_stops {p : Params} (h : p.txMax = 0) (s : State) : claimBus p s = .error .bufferBounds := by
  simp [claimBus, takeBusy, bind, Except.bind, memRead, h]

/-- A response begins only where TXBUF has a cell (R194, R60). -/
theorem txMax_pos_of_beginResponse {p : Params} {s t : State} (h : beginResponse p s = .ok t) : 0 < p.txMax :=
  Nat.pos_of_ne_zero fun h0 => by simp [beginResponse_stops h0] at h

/-- CLAIM takes the bus only where TXBUF has a cell (R236, R60). -/
theorem txMax_pos_of_claimBus {p : Params} {s t : State} (h : claimBus p s = .ok t) : 0 < p.txMax :=
  Nat.pos_of_ne_zero fun h0 => by simp [claimBus_stops h0] at h

/-- A transmission does not end where DATA or BUSY is an INPUT (R124, R197). -/
theorem endTransmit_stops {p : Params} {s : State} (h : ¬(s.dir.data = .output ∧ s.dir.busy = .output)) :
    endTransmit p s = .error .callerMisuse := by
  unfold endTransmit
  cases hd : s.dir.data with
  | input => rw [writeLine_input (l := .data) hd]; rfl
  | output =>
    have hb : s.dir.busy = .input := by cases hb : s.dir.busy <;> simp_all
    rw [writeLine_output (l := .data) hd]
    simp only [bind, Except.bind]
    rw [writeLine_input (by simpa using hb)]

/-- An address unit is not examined where FBUF has no cell (R185, R60). -/
theorem processUnit_stops {p : Params} {s : State} (hp : s.phase = .addressPhase) (h : p.frameMax = 0) :
    processUnit p s = .error .bufferBounds := by
  simp [processUnit, hp, memRead, h, bind, Except.bind]

/-- Everything that CLAIM can do where it answers a next state, whatever the parameters (R236). -/
theorem claimAt_cases {p : Params} {s t : State} (h : claimAt p s = .next t) :
    (claimAccepted s = true ∧ ∃ u, claimBus p s = .ok u ∧ t = u.respond accepted) ∨
      (claimAccepted s = false ∧ t = s.respond nothing) := by
  unfold claimAt at h
  cases hc : claimAccepted s with
  | false => rw [hc] at h; cases h; exact .inr ⟨rfl, rfl⟩
  | true =>
    rw [hc, if_pos rfl] at h
    cases hu : claimBus p s with
    | ok u => rw [hu] at h; cases h; exact .inl ⟨rfl, u, rfl, rfl⟩
    | error f => rw [hu] at h; cases h

/-! ### ASM -/

/-- The two phases in which a frame is received (R184). -/
theorem receivingPhase_iff {s : State} :
    receivingPhase s = true ↔ s.phase = .addressPhase ∨ s.phase = .payloadPhase := by
  simp [receivingPhase]

/-- Once its unit is examined a frame is in the payload phase (R185). -/
theorem examined_phase {p : Params} {s : State} (hr : receivingPhase s = true) :
    (examined p s).phase = .payloadPhase := by
  unfold examined
  obtain hp | hp := receivingPhase_iff.1 hr <;> simp [hp]

/-- The examination of a unit changes the phase, ADDRESSED and FPROC only (R185). -/
theorem examined_eq (p : Params) (s : State) : examined p s = { s with
    phase := (examined p s).phase, addressed := (examined p s).addressed, fproc := s.fproc + 1#8 } := by
  unfold examined
  split <;> rfl

/-- Everything that `process_unit()` can do (R185): the early drop of another node's frame, or the verdict. -/
theorem processUnit_cases {p : Params} {s t : State} (h : processUnit p s = .ok t) :
    t = toIdle s ∨ judgeAndAct p (examined p s) = .ok t := by
  by_cases hp : s.phase = .addressPhase
  · have hc : 0 < p.frameMax := Nat.pos_of_ne_zero fun h0 => by simp [processUnit_stops hp h0] at h
    rw [processUnit_address hp hc] at h
    split at h
    · cases h; exact .inl rfl
    · exact .inr h
  · exact .inr (processUnit_payload hp ▸ h)

/-- A delivery leaves the phase and MASTER (R190). -/
theorem deliver_frame {p : Params} {s t : State} (h : deliver p s = .ok t) :
    t.phase = s.phase ∧ t.master = s.master ∧ t.txq = s.txq := by
  obtain ⟨-, rfl⟩ | ⟨-, -, m, rfl, -⟩ := deliver_ok h <;> exact ⟨rfl, rfl, rfl⟩

/-- A property that every procedure of ASM keeps where ASM calls it (R180 to R197). -/
structure AsmKeeps (p : Params) (P : State → Prop) : Prop where
  busySeen : ∀ s v, P s → P { s with busyLast := v }
  frameStarts : ∀ s, s.phase = .idle → P s → P (startFrame s)
  payloadOpens : ∀ s, s.phase = .addressPhase → P s → P { s with phase := .payloadPhase }
  transmitEnds : ∀ s t, P s → endTransmit p s = .ok t → P t
  unitExamined : ∀ s, s.fproc.toNat < s.flen.toNat → receivingPhase s = true → P s → P (examined p s)
  frameDelivered : ∀ s t, P s → deliver p s = .ok t → P t
  diagSet : ∀ s disc noreply, P s → P { s with fdisc := disc, noreply := noreply }
  frameEnds : ∀ s, receivingPhase s = true → s.master = false → P s → P (toIdle s)
  responseBegins : ∀ s t, receivingPhase s = true → s.master = false → s.txq = true → P s →
    beginResponse p s = .ok t → P t

section
variable {p : Params} {P : State → Prop} (K : AsmKeeps p P) {s t : State}
include K

/-- A frame in progress is discarded (R191). -/
theorem AsmKeeps.discarded (hr : receivingPhase s = true) (hm : s.master = false) (hs : P s) : P (discard s) :=
  K.frameEnds { s with fdisc := true } hr hm (K.diagSet s true s.noreply hs)

/-- A frame in progress ends, delivered (R190, R192). -/
theorem AsmKeeps.deliveredAndEnded {u : State} (hr : receivingPhase s = true) (hm : s.master = false) (hs : P s)
    (hu : deliver p s = .ok u) : P (toIdle u) ∧ (toIdle u).master = false := by
  obtain ⟨hphase, hmaster, -⟩ := deliver_frame hu
  have hmu : u.master = false := hmaster.trans hm
  exact ⟨K.frameEnds u (by rw [receivingPhase, hphase]; exact hr) hmu (K.frameDelivered s u hs hu), hmu⟩

/-- The owed response, begun or not (R193, R194). -/
theorem AsmKeeps.replied (hr : receivingPhase s = true) (hm : s.master = false) (hs : P s)
    (h : reply p s = .ok t) : P t ∧ t.master = false := by
  obtain ⟨u, hu, h⟩ := reply_ok.1 h
  obtain ⟨hphase, hmaster, -⟩ := deliver_frame hu
  have hru : receivingPhase u = true := by rw [receivingPhase, hphase]; exact hr
  have hmu : u.master = false := hmaster.trans hm
  have hPu := K.frameDelivered s u hs hu
  obtain ⟨hq, hb⟩ | ⟨-, rfl⟩ := h
  · refine ⟨K.responseBegins u t hru hmu hq hPu hb, ?_⟩
    rw [beginResponse_eq (txMax_pos_of_beginResponse hb)] at hb
    cases hb
    simpa using hmu
  · exact ⟨K.frameEnds { u with noreply := true } hru hmu (K.diagSet u u.fdisc true hPu), hmu⟩

/-- One unit of the frame (R185 to R189). -/
theorem AsmKeeps.unitProcessed (hlt : s.fproc.toNat < s.flen.toNat) (hr : receivingPhase s = true)
    (hm : s.master = false) (hs : P s) (h : processUnit p s = .ok t) : P t ∧ t.master = false := by
  obtain rfl | h := processUnit_cases h
  · exact ⟨K.frameEnds s hr hm hs, hm⟩
  have hre : receivingPhase (examined p s) = true := receivingPhase_iff.2 (.inr (examined_phase hr))
  have hme : (examined p s).master = false := by rw [examined_eq]; exact hm
  have hse := K.unitExamined s hlt hr hs
  obtain ⟨-, rfl⟩ | ⟨-, u, hu, rfl⟩ | ⟨-, rfl⟩ | ⟨-, h⟩ := judgeAndAct_ok.1 h
  · exact ⟨hse, hme⟩
  · exact K.deliveredAndEnded hre hme hse hu
  · exact ⟨K.discarded hre hme hse, hme⟩
  · exact K.replied hre hme hse h

/-- The end of the frame (R195). -/
theorem AsmKeeps.frameEndChecked (hr : receivingPhase s = true) (hm : s.master = false) (hs : P s)
    (h : frameEndCheck p s = .ok t) : P t := by
  have hb := K.busySeen s .high hs
  obtain ⟨-, rfl⟩ | ⟨-, -, rfl⟩ | ⟨-, -, -, rfl⟩ | ⟨-, -, -, -, rfl⟩ | ⟨-, -, -, -, v, -, h⟩ := frameEndCheck_ok.1 h
  · exact K.discarded hr hm hs
  · exact hs
  · exact K.discarded hr hm hb
  · exact K.frameEnds { s with busyLast := .high } hr hm hb
  · obtain ⟨-, u, hu, rfl⟩ | ⟨-, rfl⟩ := h
    · exact (K.deliveredAndEnded (s := { s with busyLast := .high }) hr hm hb hu).1
    · exact K.discarded hr hm hb

/-- What every procedure of ASM keeps, ASM keeps (R180): by its four cases, and in the receiving one by induction over
the units, with MASTER clear along the loop. -/
theorem AsmKeeps.step (hs : P s) (h : asmAt p s = .next t) : P t := by
  rcases asmAt_next.1 h with ⟨hp, rfl⟩ | ⟨-, -, h⟩ | ⟨-, -, h⟩ | ⟨-, hm, h⟩
  · -- the idle case
    obtain ⟨-, h⟩ | ⟨-, -, h⟩ | ⟨-, -, h⟩ := idleCase_eq s <;> rw [h]
    · exact K.busySeen s .high hs
    · exact K.frameStarts { s with busyLast := .low } hp (K.busySeen s .low hs)
    · exact hs
  · -- the master case
    unfold masterCase at h
    split at h
    · exact K.transmitEnds s t hs h
    · split at h
      · next hc => cases h; exact K.payloadOpens s hc.1 hs
      · cases h; exact hs
  · -- the responding case
    unfold respondingCase at h
    split at h
    · exact K.transmitEnds s t hs h
    · cases h; exact hs
  · -- the receiving case
    obtain ⟨u, hu, h⟩ := receiveCase_ok.1 h
    have loop : P u ∧ u.master = false :=
      processUnits_keeps (P := fun s => P s ∧ s.master = false)
        (fun s t hlt hr hs h => K.unitProcessed hlt hr hs.2 hs.1 h) ⟨hs, hm⟩ hu
    obtain ⟨hr, h⟩ | ⟨-, rfl⟩ := h
    · exact K.frameEndChecked hr loop.2 loop.1 h
    · exact loop.1

end

/-! ### Every instruction -/

/-- What a next state can be, for each instruction (R94): the commands that only answer, the Line Driver and the
Interrupt Controller, the host's commands on the queues, and the labels. -/
def StepResult (p : Params) (s t : State) : Instr → Prop
  | .nop | .rdline _ | .rxlen | .rxrd _ | .rdsr _ => ∃ r, t = s.respond r
  | .setdir l m => t = (setDirection p l m s).respond nothing
  | .wrline l v => ∃ u, writeLine p l v s = .ok u ∧ t = u.respond nothing
  | .ien => t = (enable s).respond nothing
  | .idis => t = (disable s).respond nothing
  | .iclr => t = (clearPending s).respond nothing
  | .init => t = (resetBlock s).respond nothing
  | .snoop on => t = ({ s with snoop := on } : State).respond nothing
  | .claim =>
    (claimAccepted s = true ∧ ∃ u, claimBus p s = .ok u ∧ t = u.respond accepted) ∨ t = s.respond nothing
  | .txpush imm =>
    (s.txq = false ∧ s.txlen.toNat < p.txMax ∧
      t = ({ s with txbuf := s.txbuf.write s.txlen.toNat imm, txlen := s.txlen + 1#8 } : State).respond accepted) ∨
      t = s.respond nothing
  | .txenq =>
    (1 ≤ s.txlen.toNat ∧ t = ({ s with txq := true } : State).respond accepted) ∨ t = s.respond nothing
  | .txclr =>
    (s.tdir = .receiving ∧ t = ({ s with
      txq := false, txlen := 0#8, txidx := 0#8, txbyte := 0#8, txvalid := false, txdone := false } : State).respond
        accepted) ∨ t = s.respond nothing
  | .rxack => t = ({ s with frdy := false, dlen := 0#8, dobs := false } : State).respond (zextBit s.frdy)
  | .ext l v => t = externalChange p l v s
  | .sample => sampleAt p s = .next t
  | .asm => asmAt p s = .next t
  | .reset => t = resetBlock s

/-- An answered next state is the state that was answered. -/
theorem next_eq {a t : State} (h : (Host.Outcome.next a : Host.Outcome State Fault Refusal) = .next t) : t = a := by
  cases h; rfl

/-- Everything that a step can do where it answers a next state, for every instruction (R94). -/
theorem execAt_result {p : Params} {i : Instr} {s t : State} (h : execAt p i s = .next t) :
    StepResult p s t i := by
  cases i with
  | nop | rdline _ | rxlen | rdsr _ => exact ⟨_, next_eq h⟩
  | setdir _ _ | ien | idis | iclr | init | snoop _ | rxack | ext _ _ | reset => exact next_eq h
  | sample | asm => exact h
  | claim => exact (claimAt_cases h).imp_right And.right
  | rxrd imm =>
    simp only [execAt, rxrdAt] at h
    split at h
    · split at h
      · exact ⟨_, next_eq h⟩
      · cases h
    · exact ⟨_, next_eq h⟩
  | wrline l v =>
    simp only [execAt, wrlineAt] at h
    split at h
    · next u hu => exact ⟨u, hu, next_eq h⟩
    · cases h
  | txpush imm =>
    simp only [execAt, txpushAt] at h
    split at h
    · next hc =>
      split at h
      · next u hu =>
        obtain ⟨-, rfl⟩ := memWrite_ok.1 hu
        exact .inl ⟨hc.1, hc.2, next_eq h⟩
      · cases h
    · exact .inr (next_eq h)
  | txenq =>
    simp only [execAt, txenqAt] at h
    split at h
    · next hc => exact .inl ⟨hc.2, next_eq h⟩
    · exact .inr (next_eq h)
  | txclr =>
    simp only [execAt, txclrAt] at h
    split at h
    · next hc => exact .inl ⟨hc, next_eq h⟩
    · exact .inr (next_eq h)

/-! ### The presented word -/

/-- Everything that `step` can do where it answers a next state (R70, R95, R96). -/
theorem step_next {s t : State} (h : step s = .next t) :
    (s.pending = [] ∧ t = s) ∨
      ∃ e rest, s.pending = e :: rest ∧
        ((∃ i, fetch Config.params e = .run i ∧ execAt Config.params i { s with pending := rest } = .next t) ∨
          (fetch Config.params e = .ignored ∧ t = ({ s with pending := rest } : State).respond nothing)) := by
  unfold step at h
  cases hp : s.pending with
  | nil => simp only [hp] at h; cases h; exact .inl ⟨rfl, rfl⟩
  | cons e rest =>
    simp only [hp] at h
    refine .inr ⟨e, rest, rfl, ?_⟩
    cases hf : fetch Config.params e with
    | run i => simp only [hf, exec_eq_execAt] at h; exact .inl ⟨i, rfl, h⟩
    | ignored => simp only [hf] at h; cases h; exact .inr ⟨rfl, rfl⟩
    | notALabel => simp only [hf] at h; cases h

end Sys2Proof.Machine
end

section
/-! PROOFS. The edge detector has seen the CLOCK wire after every step (R25, R141). -/

namespace Sys2Proof.Machine

theorem clockSeen_edgeDetect (p : Params) (s : State) : clockSeen (edgeDetect p s) := edgeDetect_seen p s

/-- The response is no line (R90). -/
theorem clockSeen_respond {s : State} {r : Byte} (h : clockSeen s) : clockSeen (s.respond r) := h

theorem clockSeen_writeLine {p : Params} {l : Line} {v : Level} {s t : State} (h : writeLine p l v s = .ok t) :
    clockSeen t := by
  obtain ⟨-, rfl⟩ := writeLine_ok.1 h
  exact clockSeen_edgeDetect p _

/-- ASM changes no CLOCK line, and what it does to DATA and BUSY runs `edge_detect()`, which then finds nothing. -/
theorem asmKeeps_clockSeen (p : Params) : AsmKeeps p clockSeen where
  busySeen _ _ h := h
  frameStarts _ _ h := h
  payloadOpens _ _ h := h
  transmitEnds s t h ht := by
    obtain ⟨-, -, rfl⟩ := endTransmit_ok.1 ht
    rw [edgeDetect_same h]
    exact h
  unitExamined s _ _ h := by rw [examined_eq]; exact h
  frameDelivered s t h ht := by
    obtain ⟨-, rfl⟩ | ⟨-, -, m, rfl, -⟩ := deliver_ok ht <;> exact h
  diagSet _ _ _ h := h
  frameEnds _ _ _ h := h
  responseBegins s t _ _ _ h ht := by
    rw [beginResponse_eq (txMax_pos_of_beginResponse ht), edgeDetect_same h] at ht
    cases ht
    exact h

/-- SAMPLE reads the wire while receiving, and drives DATA with `edge_detect()` while transmitting (R161). -/
theorem clockSeen_sample {p : Params} {s t : State} (hs : clockSeen s) (h : sampleAt p s = .next t) :
    clockSeen t := by
  obtain ⟨-, -, ⟨-, h⟩ | ⟨-, h⟩⟩ := sampleAt_next.1 h
  · obtain ⟨-, rfl⟩ | ⟨-, -, rfl⟩ | ⟨-, -, rfl⟩ := receiveBit_ok.1 h <;> exact hs
  · obtain ⟨u, hu, h⟩ := transmitBit_ok.1 h
    have hseen := clockSeen_writeLine hu
    obtain ⟨-, -, rfl⟩ | ⟨-, -, h⟩ | ⟨-, rfl⟩ := h
    · exact hseen
    · obtain ⟨-, -, rfl⟩ | ⟨-, rfl⟩ := transmitComplete_ok.1 h <;> exact hseen
    · exact hseen

theorem clockSeen_claimBus {p : Params} {s t : State} (hs : clockSeen s) (h : claimBus p s = .ok t) :
    clockSeen t := by
  rw [claimBus_eq (txMax_pos_of_claimBus h), edgeDetect_same hs] at h
  cases h
  exact hs

theorem clockSeen_execAt {p : Params} {i : Instr} {s t : State} (hs : clockSeen s)
    (h : execAt p i s = .next t) : clockSeen t := by
  have hr := execAt_result h
  cases i with
  | nop | rdline _ | rxlen | rxrd _ | rdsr _ => obtain ⟨r, rfl⟩ := hr; exact hs
  | ien | idis | iclr | snoop _ | rxack => obtain rfl := hr; exact hs
  | setdir _ _ => obtain rfl := hr; exact clockSeen_edgeDetect p _
  | ext _ _ => obtain rfl := hr; exact clockSeen_edgeDetect p _
  | wrline _ _ => obtain ⟨u, hu, rfl⟩ := hr; exact clockSeen_respond (clockSeen_writeLine hu)
  | init => obtain rfl := hr; rfl
  | reset => obtain rfl := hr; rfl
  | claim =>
    obtain ⟨-, u, hu, rfl⟩ | rfl := hr
    · exact clockSeen_respond (clockSeen_claimBus hs hu)
    · exact hs
  | txpush _ => obtain ⟨-, -, rfl⟩ | rfl := hr <;> exact hs
  | txenq => obtain ⟨-, rfl⟩ | rfl := hr <;> exact hs
  | txclr => obtain ⟨-, rfl⟩ | rfl := hr <;> exact hs
  | sample => exact clockSeen_sample hs hr
  | asm => exact (asmKeeps_clockSeen p).step hs hr

/-- Settles O50, instruction by instruction; `step` adds the schedule, which the detector does not see. -/
theorem stepKeepsClockSeen : Obligations.StepKeepsClockSeen := by
  refine ⟨fun p i s t hs h => clockSeen_execAt hs h, fun s t hs h => ?_⟩
  obtain ⟨-, rfl⟩ | ⟨e, rest, -, ⟨i, -, h⟩ | ⟨-, rfl⟩⟩ := step_next h
  · exact hs
  · exact clockSeen_execAt (s := { s with pending := rest }) hs h
  · exact hs

end Sys2Proof.Machine
end

section
/-! PROOFS. In IDLE the interrupt is off and nothing is half received (R58 item 4). -/

namespace Sys2Proof.Machine

/-- Outside IDLE there is nothing to show. -/
theorem idleQuiet_of_active {s : State} (h : s.phase ≠ .idle) : IdleQuiet s :=
  ⟨fun hp => absurd hp h, fun hp => absurd hp h, fun hp => absurd hp h, fun hp => absurd hp h,
    fun hp => absurd hp h⟩

/-- `to_idle()` clears all of it (R192). -/
theorem idleQuiet_toIdle (s : State) : IdleQuiet (toIdle s) :=
  ⟨fun _ => rfl, fun _ => rfl, fun _ => rfl, fun _ => rfl, fun _ => rfl⟩

theorem idleQuiet_resetBlock (s : State) : IdleQuiet (resetBlock s) :=
  ⟨fun _ => rfl, fun _ => rfl, fun _ => rfl, fun _ => rfl, fun _ => rfl⟩

theorem idleQuiet_respond {s : State} {r : Byte} (h : IdleQuiet s) : IdleQuiet (s.respond r) := { h with }

/-- The edge detector writes IPEND, ELOST and CLK_PREV only (R141). -/
theorem idleQuiet_edgeDetect {p : Params} {s : State} (h : IdleQuiet s) : IdleQuiet (edgeDetect p s) := by
  rw [edgeDetect_eq]
  exact { h with }

theorem idleQuiet_writeLine {p : Params} {l : Line} {v : Level} {s t : State} (hs : IdleQuiet s)
    (h : writeLine p l v s = .ok t) : IdleQuiet t := by
  obtain ⟨-, rfl⟩ := writeLine_ok.1 h
  exact idleQuiet_edgeDetect { hs with }

/-- ASM enters IDLE through `to_idle()` only, and a frame that starts, goes on or is answered is outside IDLE. -/
theorem asmKeeps_idleQuiet (p : Params) : AsmKeeps p IdleQuiet where
  busySeen _ _ h := { h with }
  frameStarts _ _ _ := idleQuiet_of_active (by simp)
  payloadOpens _ _ _ := idleQuiet_of_active (by simp)
  transmitEnds s t _ ht := by
    obtain ⟨-, -, rfl⟩ := endTransmit_ok.1 ht
    exact idleQuiet_toIdle _
  unitExamined s _ hr _ := idleQuiet_of_active (by simp [examined_phase hr])
  frameDelivered s t h ht := by
    obtain ⟨-, rfl⟩ | ⟨-, -, m, rfl, -⟩ := deliver_ok ht <;> exact { h with }
  diagSet _ _ _ h := { h with }
  frameEnds s _ _ _ := idleQuiet_toIdle s
  responseBegins s t _ _ _ _ ht := by
    rw [beginResponse_eq (txMax_pos_of_beginResponse ht)] at ht
    cases ht
    exact idleQuiet_of_active (by simp)

theorem writeLine_phase {p : Params} {l : Line} {v : Level} {s t : State} (h : writeLine p l v s = .ok t) :
    t.phase = s.phase := by
  obtain ⟨-, rfl⟩ := writeLine_ok.1 h
  simp

/-- SAMPLE leaves the phase (R160). -/
theorem sample_phase {p : Params} {s t : State} (h : sampleAt p s = .next t) : t.phase = s.phase := by
  obtain ⟨-, -, ⟨-, h⟩ | ⟨-, h⟩⟩ := sampleAt_next.1 h
  · obtain ⟨-, rfl⟩ | ⟨-, -, rfl⟩ | ⟨-, -, rfl⟩ := receiveBit_ok.1 h <;> rfl
  · obtain ⟨u, hu, h⟩ := transmitBit_ok.1 h
    have hphase : u.phase = s.phase := (writeLine_phase hu).trans rfl
    obtain ⟨-, -, rfl⟩ | ⟨-, -, h⟩ | ⟨-, rfl⟩ := h
    · exact hphase
    · obtain ⟨-, -, rfl⟩ | ⟨-, rfl⟩ := transmitComplete_ok.1 h <;> exact hphase
    · exact hphase

/-- With the interrupt off in IDLE, SAMPLE runs outside IDLE only, and stays there (R161). -/
theorem idleQuiet_sample {p : Params} {s t : State} (hs : IdleQuiet s) (h : sampleAt p s = .next t) :
    IdleQuiet t := by
  obtain ⟨hen, -⟩ := sampleAt_next.1 h
  have hactive : s.phase ≠ .idle := fun hp => by simp [hs.idle_ien hp] at hen
  exact idleQuiet_of_active (sample_phase h ▸ hactive)

/-- Settles O48, instruction by instruction: only IEN could set the interrupt in IDLE, and SAMPLE is off there. -/
theorem stepKeepsIdleQuiet : Obligations.StepKeepsIdleQuiet := by
  intro p i s t hs hien h
  have hr := execAt_result h
  cases i with
  | nop | rdline _ | rxlen | rxrd _ | rdsr _ => obtain ⟨r, rfl⟩ := hr; exact idleQuiet_respond hs
  | iclr | snoop _ | rxack => obtain rfl := hr; exact { hs with }
  | ien => obtain rfl := hr; exact idleQuiet_of_active fun hp => hien hp rfl
  | idis => obtain rfl := hr; exact { hs with idle_ien := fun _ => rfl }
  | setdir _ _ => obtain rfl := hr; exact idleQuiet_respond (idleQuiet_edgeDetect { hs with })
  | ext _ _ => obtain rfl := hr; exact idleQuiet_edgeDetect { hs with }
  | wrline _ _ => obtain ⟨u, hu, rfl⟩ := hr; exact idleQuiet_respond (idleQuiet_writeLine hs hu)
  | init => obtain rfl := hr; exact idleQuiet_respond (idleQuiet_resetBlock s)
  | reset => obtain rfl := hr; exact idleQuiet_resetBlock s
  | claim =>
    obtain ⟨-, u, hu, rfl⟩ | rfl := hr
    · rw [claimBus_eq (txMax_pos_of_claimBus hu)] at hu
      cases hu
      exact idleQuiet_of_active (by simp)
    · exact { hs with }
  | txpush _ => obtain ⟨-, -, rfl⟩ | rfl := hr <;> exact { hs with }
  | txenq => obtain ⟨-, rfl⟩ | rfl := hr <;> exact { hs with }
  | txclr => obtain ⟨-, rfl⟩ | rfl := hr <;> exact { hs with }
  | sample => exact idleQuiet_sample hs hr
  | asm => exact (asmKeeps_idleQuiet p).step hs hr

end Sys2Proof.Machine
end

section
/-! PROOFS. The invariants of R58 (BlockInv): what the shared operations, SAMPLE, ASM and CLAIM do to them. -/

namespace Sys2Proof.Machine

/-! ### The shared operations -/

theorem blockInv_respond {p : Params} {s : State} {r : Byte} (h : BlockInv p s) : BlockInv p (s.respond r) :=
  { h with }

/-- The schedule is no part of the block (log 1). -/
theorem blockInv_pending {p : Params} {s : State} {rest : List Presented} (h : BlockInv p s) :
    BlockInv p { s with pending := rest } :=
  { h with }

/-- The edge detector writes IPEND, ELOST and CLK_PREV, which no invariant speaks of (R141). -/
theorem blockInv_edgeDetect {p : Params} {s : State} (h : BlockInv p s) : BlockInv p (edgeDetect p s) := by
  rw [edgeDetect_eq]
  exact { h with }

/-- CLOCK is free: no invariant speaks of its direction (R58). -/
theorem blockInv_setDirection_clock {p : Params} {m : Direction} {s : State} (h : BlockInv p s) :
    BlockInv p (setDirection p .clock m s) :=
  blockInv_edgeDetect (s := { s with dir := s.dir.set .clock m }) { h with }

theorem blockInv_writeLine_clock {p : Params} {v : Level} {s t : State} (h : BlockInv p s)
    (ht : writeLine p .clock v s = .ok t) : BlockInv p t := by
  obtain ⟨-, rfl⟩ := writeLine_ok.1 ht
  exact blockInv_edgeDetect (s := { s with out := s.out.set .clock v }) { h with }

theorem blockInv_externalChange {p : Params} {l : Line} {v : Level} {s : State} (h : BlockInv p s) :
    BlockInv p (externalChange p l v s) :=
  blockInv_edgeDetect (s := { s with extLevel := s.extLevel.set l v }) { h with }

/-- Reset meets the invariants, whatever the environment's levels are (R58, R59, R290). -/
theorem blockInv_resetBlock {p : Params} (hp : p.Valid) (s : State) : BlockInv p (resetBlock s) where
  bitcnt_lt := hp.bpu_pos
  fproc_le := le_rfl
  flen_le := Nat.zero_le _
  txlen_le := Nat.zero_le _
  dlen_le := Nat.zero_le _
  token h := nomatch h
  tdir_iff_data := ⟨(nomatch ·), (nomatch ·)⟩
  data_iff_busy := Iff.rfl
  busy_iff_owns := by simp [ownsFrame, State.reset]
  idle_receiving _ := rfl
  idle_fproc _ := rfl
  idle_addressed _ := rfl
  idle_master _ := rfl
  data_released _ := rfl
  busy_released _ := rfl
  unit_queued h := nomatch h
  unit_index h := nomatch h
  unit_in_hand h := nomatch h
  no_frame_no_length _ := rfl
  queued_nonempty h := nomatch h

/-! ### Who drives the bus -/

theorem direction_ne_output {d : Direction} : d ≠ .output ↔ d = .input := by cases d <;> simp

theorem transfer_ne_transmitting {d : Transfer} : d ≠ .transmitting ↔ d = .receiving := by cases d <;> simp

/-- A node that neither masters nor responds drives neither DATA nor BUSY, and receives (R58 items 2 and 3). -/
theorem BlockInv.released {p : Params} {s : State} (h : BlockInv p s) (hm : s.master = false)
    (hr : s.phase ≠ .responding) : s.dir.data = .input ∧ s.dir.busy = .input ∧ s.tdir = .receiving := by
  have hbusy : s.dir.busy ≠ .output := fun hb => by simpa [ownsFrame, hm, hr] using h.busy_iff_owns.1 hb
  have hdata : s.dir.data ≠ .output := mt h.data_iff_busy.1 hbusy
  have htdir : s.tdir ≠ .transmitting := mt h.tdir_iff_data.1 hdata
  exact ⟨direction_ne_output.1 hdata, direction_ne_output.1 hbusy, transfer_ne_transmitting.1 htdir⟩

theorem receivingPhase_not_responding {s : State} (h : receivingPhase s = true) : s.phase ≠ .responding := by
  obtain hp | hp := receivingPhase_iff.1 h <;> simp [hp]

/-! ### ASM -/

/-- A node that drives nothing is between frames, or hears a new one: what `to_idle()` (R192) and `start_frame()`
(R182) leave alike. -/
theorem blockInv_cleared {p : Params} {s t : State} (hp : p.Valid) (h : BlockInv p s) (hm : s.master = false)
    (hs : s.phase ≠ .responding) (hphase : t.phase ≠ .responding)
    (ht : t = { s with
      tdir := .receiving, bitcnt := 0#3, flen := 0#8, fproc := 0#8, addressed := false,
      phase := t.phase, shift := t.shift, fovf := t.fovf, ien := t.ien, ipend := t.ipend }) : BlockInv p t := by
  obtain ⟨hdata, hbusy, -⟩ := h.released hm hs
  rw [ht]
  exact { h with
    bitcnt_lt := hp.bpu_pos
    fproc_le := le_rfl
    flen_le := Nat.zero_le _
    tdir_iff_data := by simp [hdata]
    busy_iff_owns := by simp [hbusy, hm, ownsFrame, hphase]
    idle_receiving := fun _ => rfl
    idle_fproc := fun _ => rfl
    idle_addressed := fun _ => rfl
    idle_master := fun _ => hm }

theorem blockInv_toIdle {p : Params} {s : State} (hp : p.Valid) (h : BlockInv p s) (hm : s.master = false)
    (hs : s.phase ≠ .responding) : BlockInv p (toIdle s) :=
  blockInv_cleared hp h hm hs (by simp) rfl

/-- A frame starts from IDLE, where this node drives nothing (R182). -/
theorem blockInv_startFrame {p : Params} {s : State} (hp : p.Valid) (h : BlockInv p s) (hs : s.phase = .idle) :
    BlockInv p (startFrame s) :=
  blockInv_cleared hp h (h.idle_master hs) (by simp [hs]) (by simp) rfl

/-- The master's frame goes from the address unit to the payload (R183). -/
theorem blockInv_openPayload {p : Params} {s : State} (h : BlockInv p s) (hs : s.phase = .addressPhase) :
    BlockInv p { s with phase := .payloadPhase } :=
  { h with
    busy_iff_owns := h.busy_iff_owns.trans (by simp [ownsFrame, hs])
    idle_receiving := (nomatch ·)
    idle_fproc := (nomatch ·)
    idle_addressed := (nomatch ·)
    idle_master := (nomatch ·) }

/-- An examined unit is one that the sampler has appended (R185). -/
theorem blockInv_examined {p : Params} {s : State} (h : BlockInv p s)
    (hlt : s.fproc.toNat < s.flen.toNat) (hr : receivingPhase s = true) : BlockInv p (examined p s) := by
  have hphase := examined_phase (p := p) hr
  have hcount : (s.fproc + 1#8).toNat = s.fproc.toNat + 1 := by
    rw [BitVec.toNat_add_of_lt] <;> simp; omega
  have hactive := receivingPhase_not_responding hr
  rw [examined_eq, hphase]
  exact { h with
    fproc_le := by simpa [hcount] using hlt
    busy_iff_owns := h.busy_iff_owns.trans (by simp [ownsFrame, hactive])
    idle_receiving := (nomatch ·)
    idle_fproc := (nomatch ·)
    idle_addressed := (nomatch ·)
    idle_master := (nomatch ·) }

/-- A delivered frame is as long as what was examined (R190). -/
theorem blockInv_deliver {p : Params} {s t : State} (h : BlockInv p s) (ht : deliver p s = .ok t) :
    BlockInv p t := by
  obtain ⟨-, rfl⟩ | ⟨-, hlen, m, rfl, -⟩ := deliver_ok ht
  · exact { h with }
  · exact { h with
      dlen_le := hlen
      no_frame_no_length := (nomatch ·) }

/-- This node takes DATA and BUSY and has the first unit of the enqueued frame in hand: what a response (R194) and
CLAIM (R236) leave alike. -/
theorem blockInv_transmitting {p : Params} {s t : State} (hp : p.Valid) (h : BlockInv p s) (hq : s.txq = true)
    (hlen : t.fproc.toNat ≤ t.flen.toNat ∧ t.flen.toNat ≤ p.frameMax) (howns : ownsFrame t)
    (hphase : t.phase ≠ .idle)
    (ht : t = { s with
      dir := { s.dir with data := .output, busy := .output }, out := { s.out with busy := .low },
      txidx := 0#8, txbyte := s.txbuf.read 0, txvalid := true, bitcnt := 0#3, tdir := .transmitting,
      txdone := t.txdone, shift := t.shift, flen := t.flen, fproc := t.fproc, fovf := t.fovf, phase := t.phase,
      addressed := t.addressed, master := t.master, busyLast := t.busyLast, ien := t.ien, ipend := t.ipend,
      elost := t.elost, clkPrev := t.clkPrev }) : BlockInv p t := by
  rw [ht]
  exact { h with
    bitcnt_lt := hp.bpu_pos
    fproc_le := hlen.1
    flen_le := hlen.2
    token := fun _ => rfl
    tdir_iff_data := by simp
    data_iff_busy := by simp
    busy_iff_owns := ⟨fun _ => howns, fun _ => rfl⟩
    idle_receiving := fun hi => absurd hi hphase
    idle_fproc := fun hi => absurd hi hphase
    idle_addressed := fun hi => absurd hi hphase
    idle_master := fun hi => absurd hi hphase
    data_released := (nomatch ·)
    busy_released := (nomatch ·)
    unit_queued := fun _ => hq
    unit_index := fun _ => h.queued_nonempty hq
    unit_in_hand := fun _ => rfl }

theorem blockInv_beginResponse {p : Params} {s t : State} (hp : p.Valid) (h : BlockInv p s) (hq : s.txq = true)
    (ht : beginResponse p s = .ok t) : BlockInv p t := by
  rw [beginResponse_eq hp.txMax_pos, edgeDetect_eq] at ht
  cases ht
  exact blockInv_transmitting hp h hq ⟨le_rfl, h.fproc_le.trans h.flen_le⟩ (.inl rfl) (by simp) rfl

theorem blockInv_claimBus {p : Params} {s t : State} (hp : p.Valid) (h : BlockInv p s) (hq : s.txq = true)
    (ht : claimBus p s = .ok t) : BlockInv p t := by
  rw [claimBus_eq hp.txMax_pos, edgeDetect_eq] at ht
  cases ht
  exact blockInv_transmitting hp h hq ⟨le_rfl, Nat.zero_le _⟩ (.inr rfl) (by simp) rfl

/-- The end of a transmission gives back DATA and BUSY released, and empties the queue (R197, R223). -/
theorem blockInv_endTransmit {p : Params} {s t : State} (hp : p.Valid) (h : BlockInv p s)
    (ht : endTransmit p s = .ok t) : BlockInv p t := by
  obtain ⟨-, -, rfl⟩ := endTransmit_ok.1 ht
  rw [edgeDetect_eq]
  exact { h with
    bitcnt_lt := hp.bpu_pos
    fproc_le := le_rfl
    flen_le := Nat.zero_le _
    txlen_le := Nat.zero_le _
    token := (nomatch ·)
    tdir_iff_data := ⟨(nomatch ·), (nomatch ·)⟩
    data_iff_busy := ⟨(nomatch ·), (nomatch ·)⟩
    busy_iff_owns := by simp [ownsFrame]
    idle_receiving := fun _ => rfl
    idle_fproc := fun _ => rfl
    idle_addressed := fun _ => rfl
    idle_master := fun _ => rfl
    data_released := fun _ => rfl
    busy_released := fun _ => rfl
    unit_queued := (nomatch ·)
    unit_index := (nomatch ·)
    unit_in_hand := (nomatch ·)
    queued_nonempty := (nomatch ·) }

theorem asmKeeps_blockInv {p : Params} (hp : p.Valid) : AsmKeeps p (BlockInv p) where
  busySeen _ _ h := { h with }
  frameStarts _ hs h := blockInv_startFrame hp h hs
  payloadOpens _ hs h := blockInv_openPayload h hs
  transmitEnds _ _ h ht := blockInv_endTransmit hp h ht
  unitExamined _ hlt hr h := blockInv_examined h hlt hr
  frameDelivered _ _ h ht := blockInv_deliver h ht
  diagSet _ _ _ h := { h with }
  frameEnds _ hr hm h := blockInv_toIdle hp h hm (receivingPhase_not_responding hr)
  responseBegins _ _ _ _ hq h ht := blockInv_beginResponse hp h hq ht

/-! ### SAMPLE -/

/-- Taking the interrupt clears IPEND, which no invariant speaks of (R267). -/
theorem blockInv_takeInterrupt {p : Params} {s : State} (h : BlockInv p s) : BlockInv p (takeInterrupt s) :=
  { h with }

/-- A received bit moves the counter on, and a received unit is appended inside the capacity (R162 to R164). -/
theorem blockInv_receiveBit {p : Params} {s t : State} (hp : p.Valid) (h : BlockInv p s)
    (ht : receiveBit p s = .ok t) : BlockInv p t := by
  obtain ⟨-, rfl⟩ | ⟨-, hroom, rfl⟩ | ⟨-, -, rfl⟩ := receiveBit_ok.1 ht
  · exact { h with bitcnt_lt := nextBitcnt_lt hp h.bitcnt_lt }
  · have hcount : (s.flen + 1#8).toNat = s.flen.toNat + 1 := by
      have := hp.frameMax_le
      rw [BitVec.toNat_add_of_lt] <;> simp; omega
    exact { h with
      bitcnt_lt := hp.bpu_pos
      fproc_le := hcount ▸ h.fproc_le.trans (Nat.le_succ _)
      flen_le := hcount ▸ hroom }
  · exact { h with bitcnt_lt := hp.bpu_pos }

/-- DATA may be written while it is an OUTPUT (R58 item 5, R124). -/
theorem blockInv_writeLine_data {p : Params} {v : Level} {s t : State} (h : BlockInv p s)
    (ht : writeLine p .data v s = .ok t) : BlockInv p t := by
  obtain ⟨hdata, rfl⟩ := writeLine_ok.1 ht
  have hdriven : s.dir.data = .output := hdata
  exact blockInv_edgeDetect (s := { s with out := s.out.set .data v })
    { h with data_released := fun hi => by simp [hdriven] at hi }

/-- The next unit of the frame comes in hand, or there is none left (R166). -/
theorem blockInv_transmitComplete {p : Params} {s t : State} (h : BlockInv p s)
    (ht : transmitComplete p s = .ok t) : BlockInv p t := by
  obtain ⟨hmore, -, rfl⟩ | ⟨-, rfl⟩ := transmitComplete_ok.1 ht
  · have hcount : (s.txidx + 1#8).toNat = s.txidx.toNat + 1 := by
      rw [BitVec.toNat_add_of_lt] <;> simp; omega
    exact { h with
      unit_index := fun _ => hcount ▸ hmore
      unit_in_hand := fun _ => by simp only [hcount] }
  · exact { h with
      unit_queued := (nomatch ·)
      unit_index := (nomatch ·)
      unit_in_hand := (nomatch ·) }

/-- The underflow hold counts modulo BPU (R167). -/
theorem underflowBitcnt_lt {p : Params} (hp : p.Valid) (n : Nat) : (BitVec.ofNat 3 ((n + 1) % p.bpu)).toNat < p.bpu :=
  lt_of_le_of_lt (by rw [BitVec.toNat_ofNat]; exact Nat.mod_le _ _) (Nat.mod_lt _ hp.bpu_pos)

theorem blockInv_transmitBit {p : Params} {s t : State} (hp : p.Valid) (h : BlockInv p s)
    (ht : transmitBit p s = .ok t) : BlockInv p t := by
  obtain ⟨u, hu, ht⟩ := transmitBit_ok.1 ht
  have hdriven := blockInv_writeLine_data h hu
  obtain ⟨-, -, rfl⟩ | ⟨-, -, ht⟩ | ⟨-, rfl⟩ := ht
  · exact { hdriven with bitcnt_lt := nextBitcnt_lt hp h.bitcnt_lt }
  · exact blockInv_transmitComplete (s := { u with bitcnt := 0#3 }) { hdriven with bitcnt_lt := hp.bpu_pos } ht
  · exact { hdriven with bitcnt_lt := underflowBitcnt_lt hp _ }

theorem blockInv_sample {p : Params} {s t : State} (hp : p.Valid) (h : BlockInv p s)
    (ht : sampleAt p s = .next t) : BlockInv p t := by
  obtain ⟨-, -, ⟨-, ht⟩ | ⟨-, ht⟩⟩ := sampleAt_next.1 ht
  · exact blockInv_receiveBit hp (blockInv_takeInterrupt h) ht
  · exact blockInv_transmitBit hp (blockInv_takeInterrupt h) ht

/-! ### The queues -/

/-- A unit is staged while nothing is enqueued, so none is in hand (R237). -/
theorem blockInv_txpush {p : Params} {s : State} (hp : p.Valid) (h : BlockInv p s) (hq : s.txq = false)
    (hroom : s.txlen.toNat < p.txMax) (m : Memory) :
    BlockInv p { s with txbuf := m, txlen := s.txlen + 1#8 } := by
  have hcount : (s.txlen + 1#8).toNat = s.txlen.toNat + 1 := by
    have := hp.txMax_le
    rw [BitVec.toNat_add_of_lt] <;> simp; omega
  have hidle : s.txvalid ≠ true := fun hv => by simpa [hq] using h.unit_queued hv
  exact { h with
    txlen_le := hcount ▸ hroom
    unit_index := fun hv => absurd hv hidle
    unit_in_hand := fun hv => absurd hv hidle
    queued_nonempty := fun _ => hcount ▸ Nat.le_add_left 1 _ }

/-- TXCLR leaves no frame and no unit in hand (R239). -/
theorem blockInv_txclr {p : Params} {s : State} (h : BlockInv p s) : BlockInv p { s with
    txq := false, txlen := 0#8, txidx := 0#8, txbyte := 0#8, txvalid := false, txdone := false } :=
  { h with
    txlen_le := Nat.zero_le _
    unit_queued := (nomatch ·)
    unit_index := (nomatch ·)
    unit_in_hand := (nomatch ·)
    queued_nonempty := (nomatch ·) }

/-! ### The step -/

/-- CLAIM is accepted only with a frame enqueued (R236). -/
theorem txq_of_claimAccepted {s : State} (h : claimAccepted s = true) : s.txq = true := by
  simp only [claimAccepted, Bool.and_eq_true] at h
  exact h.2

/-- Every step that the premise of R58 allows keeps its invariants. -/
theorem blockInv_execAt {p : Params} {i : Instr} {s t : State} (hp : p.Valid) (h : BlockInv p s)
    (hi : drivesBusLine i = false) (ht : execAt p i s = .next t) : BlockInv p t := by
  have hr := execAt_result ht
  cases i with
  | nop | rdline _ | rxlen | rxrd _ | rdsr _ => obtain ⟨r, rfl⟩ := hr; exact blockInv_respond h
  | ien | idis | iclr | snoop _ => obtain rfl := hr; exact { h with }
  | setdir l _ =>
    obtain rfl : l = .clock := by simpa [drivesBusLine] using hi
    obtain rfl := hr
    exact blockInv_respond (blockInv_setDirection_clock h)
  | wrline l _ =>
    obtain rfl : l = .clock := by simpa [drivesBusLine] using hi
    obtain ⟨u, hu, rfl⟩ := hr
    exact blockInv_respond (blockInv_writeLine_clock h hu)
  | ext _ _ => obtain rfl := hr; exact blockInv_externalChange h
  | init => obtain rfl := hr; exact blockInv_respond (blockInv_resetBlock hp s)
  | reset => obtain rfl := hr; exact blockInv_resetBlock hp s
  | claim =>
    obtain ⟨hc, u, hu, rfl⟩ | rfl := hr
    · exact blockInv_respond (blockInv_claimBus hp h (txq_of_claimAccepted hc) hu)
    · exact blockInv_respond h
  | txpush _ =>
    obtain ⟨hq, hroom, rfl⟩ | rfl := hr
    · exact blockInv_respond (blockInv_txpush hp h hq hroom _)
    · exact blockInv_respond h
  | txenq =>
    obtain ⟨hlen, rfl⟩ | rfl := hr
    · exact { h with unit_queued := fun _ => rfl, queued_nonempty := fun _ => hlen }
    · exact blockInv_respond h
  | txclr =>
    obtain ⟨-, rfl⟩ | rfl := hr
    · exact blockInv_respond (blockInv_txclr h)
    · exact blockInv_respond h
  | rxack =>
    obtain rfl := hr
    exact { h with dlen_le := Nat.zero_le _, no_frame_no_length := fun _ => rfl }
  | sample => exact blockInv_sample hp h hr
  | asm => exact (asmKeeps_blockInv hp).step h hr

/-- Settles O46, instruction by instruction; `step` runs an instruction, or answers a reserved word. -/
theorem stepKeepsBlockInv : Obligations.StepKeepsBlockInv := by
  refine ⟨fun p i s t hp h hi ht => blockInv_execAt hp h hi ht, fun s t h hpremise ht => ?_⟩
  obtain ⟨-, rfl⟩ | ⟨e, rest, hpend, ⟨i, hf, ht⟩ | ⟨-, rfl⟩⟩ := step_next ht
  · exact h
  · exact blockInv_execAt config_params_valid (blockInv_pending h) (hpremise e rest i hpend hf) ht
  · exact blockInv_respond (blockInv_pending h)

/-- Settles O47: State.reset is what RESET makes of itself, and resets meet the invariants. -/
theorem resetMeetsInvariants : Obligations.ResetMeetsInvariants := by
  intro p hp
  have hreset : resetBlock State.reset = State.reset := rfl
  refine ⟨?_, ?_, ⟨rfl, rfl, rfl⟩, rfl⟩
  · exact hreset ▸ blockInv_resetBlock hp State.reset
  · exact hreset ▸ idleQuiet_resetBlock State.reset

end Sys2Proof.Machine
end

section
/-! PROOFS. The DIAG bits (R34): every step but INIT, RESET and RDSR of SR11 commutes with setting them, so none reads
them and none clears them. -/

namespace Sys2Proof.Machine

/-- A state with the DIAG bits of another one set too (R34). -/
def joinDiag (d s : State) : State :=
  { s with
    elost := s.elost || d.elost, fdisc := s.fdisc || d.fdisc, fdrop := s.fdrop || d.fdrop,
    noreply := s.noreply || d.noreply }

theorem joinDiag_eraseDiag (s : State) : joinDiag s (eraseDiag s) = s := rfl

theorem eraseDiag_joinDiag (d s : State) : eraseDiag (joinDiag d s) = eraseDiag s := rfl

/-! ### Sequences and branches -/

section
variable {d : State} {x x' y y' : Except Fault State}

/-- A sequence commutes with setting DIAG bits where its parts do. -/
theorem bind_joinDiag {k k' : State → Except Fault State} (hx : x' = joinDiag d <$> x)
    (hk : ∀ t, k' (joinDiag d t) = joinDiag d <$> k t) : (x' >>= k') = joinDiag d <$> (x >>= k) := by
  rw [hx, bind_map_left, map_bind]
  exact bind_congr hk

/-- So does a sequence that begins by reading what no DIAG bit touches. -/
theorem bindRead_joinDiag {α : Type} {r : Except Fault α} {k k' : α → Except Fault State}
    (hk : ∀ v, k' v = joinDiag d <$> k v) : (r >>= k') = joinDiag d <$> (r >>= k) := by
  rw [map_bind]
  exact bind_congr hk

/-- So does a branch on what no DIAG bit touches. -/
theorem ite_joinDiag {c c' : Prop} [Decidable c] [Decidable c'] (hc : c' ↔ c) (hx : x' = joinDiag d <$> x)
    (hy : y' = joinDiag d <$> y) : (if c' then x' else y') = joinDiag d <$> (if c then x else y) := by
  rw [if_congr hc hx hy, apply_ite (joinDiag d <$> ·)]

end

section
variable (p : Params) (d s : State)

/-! ### The shared operations -/

theorem memRead_joinDiag (b : Buffer) (i : Nat) : memRead p b i (joinDiag d s) = memRead p b i s := by
  cases b <;> rfl

theorem memWrite_joinDiag (b : Buffer) (i : Nat) (v : Byte) :
    memWrite p b i v (joinDiag d s) = joinDiag d <$> memWrite p b i v s :=
  ite_joinDiag Iff.rfl (by cases b <;> rfl) rfl

/-- A lost edge is added to what ELOST holds, in any order (R141). -/
theorem edgeDetect_joinDiag : edgeDetect p (joinDiag d s) = joinDiag d (edgeDetect p s) := by
  have hfound : edgeFound p (joinDiag d s) = edgeFound p s := rfl
  rw [edgeDetect_eq, edgeDetect_eq, hfound]
  simp only [joinDiag, Bool.or_right_comm]
  rfl

theorem setDirection_joinDiag (l : Line) (m : Direction) :
    setDirection p l m (joinDiag d s) = joinDiag d (setDirection p l m s) :=
  edgeDetect_joinDiag p d { s with dir := s.dir.set l m }

theorem externalChange_joinDiag (l : Line) (v : Level) :
    externalChange p l v (joinDiag d s) = joinDiag d (externalChange p l v s) :=
  edgeDetect_joinDiag p d { s with extLevel := s.extLevel.set l v }

theorem writeLine_joinDiag (l : Line) (v : Level) :
    writeLine p l v (joinDiag d s) = joinDiag d <$> writeLine p l v s := by
  cases hd : s.dir.get l with
  | input => rw [writeLine_input hd, writeLine_input (s := joinDiag d s) hd]; rfl
  | output =>
    rw [writeLine_output hd, writeLine_output (s := joinDiag d s) hd]
    exact congrArg Except.ok (edgeDetect_joinDiag p d { s with out := s.out.set l v })

/-! ### ASM and CLAIM -/

theorem beginResponse_joinDiag : beginResponse p (joinDiag d s) = joinDiag d <$> beginResponse p s := by
  obtain h | h := Nat.eq_zero_or_pos p.txMax
  · rw [beginResponse_stops h, beginResponse_stops h]; rfl
  · rw [beginResponse_eq h, beginResponse_eq h, edgeDetect_joinDiag]; rfl

theorem claimBus_joinDiag : claimBus p (joinDiag d s) = joinDiag d <$> claimBus p s := by
  obtain h | h := Nat.eq_zero_or_pos p.txMax
  · rw [claimBus_stops h, claimBus_stops h]; rfl
  · rw [claimBus_eq h, claimBus_eq h, edgeDetect_joinDiag]; rfl

theorem endTransmit_joinDiag : endTransmit p (joinDiag d s) = joinDiag d <$> endTransmit p s := by
  by_cases h : s.dir.data = .output ∧ s.dir.busy = .output
  · rw [endTransmit_ok.2 ⟨h.1, h.2, rfl⟩, (endTransmit_ok (s := joinDiag d s)).2 ⟨h.1, h.2, rfl⟩,
      edgeDetect_joinDiag]
    rfl
  · rw [endTransmit_stops h, endTransmit_stops (s := joinDiag d s) h]; rfl

theorem copyUnits_joinDiag (n : Nat) : copyUnits p n (joinDiag d s) = joinDiag d <$> copyUnits p n s := by
  induction n with
  | zero => rfl
  | succ n ih =>
    refine bind_joinDiag ih fun t => ?_
    rw [memRead_joinDiag]
    exact bindRead_joinDiag fun u => memWrite_joinDiag p d t .dbuf n u

theorem deliver_joinDiag : deliver p (joinDiag d s) = joinDiag d <$> deliver p s :=
  ite_joinDiag Iff.rfl rfl (bind_joinDiag (copyUnits_joinDiag p d s s.fproc.toNat) fun _ => rfl)

theorem reply_joinDiag : reply p (joinDiag d s) = joinDiag d <$> reply p s :=
  bind_joinDiag (deliver_joinDiag p d s) fun t => ite_joinDiag Iff.rfl (beginResponse_joinDiag p d t) rfl

theorem judgeAndAct_joinDiag : judgeAndAct p (joinDiag d s) = joinDiag d <$> judgeAndAct p s := by
  refine bindRead_joinDiag (r := judge p s) fun v => ?_
  cases v with
  | more | openEnded | violation => rfl
  | complete => exact bind_joinDiag (deliver_joinDiag p d s) fun _ => rfl
  | reply => exact reply_joinDiag p d s

theorem processUnit_joinDiag : processUnit p (joinDiag d s) = joinDiag d <$> processUnit p s :=
  ite_joinDiag Iff.rfl
    (bindRead_joinDiag (r := memRead p .fbuf 0 s) fun u => ite_joinDiag Iff.rfl rfl
      (judgeAndAct_joinDiag p d
        { s with addressed := u == p.nodeAddr, phase := .payloadPhase, fproc := s.fproc + 1#8 }))
    (judgeAndAct_joinDiag p d { s with fproc := s.fproc + 1#8 })

theorem processUnits_joinDiag (n : Nat) :
    processUnits p n (joinDiag d s) = joinDiag d <$> processUnits p n s := by
  induction n generalizing s with
  | zero => rfl
  | succ n ih => exact ite_joinDiag Iff.rfl (bind_joinDiag (processUnit_joinDiag p d s) ih) rfl

theorem frameEndCheck_joinDiag : frameEndCheck p (joinDiag d s) = joinDiag d <$> frameEndCheck p s := by
  have hread : readLine (joinDiag d s) .busy = readLine s .busy := rfl
  refine ite_joinDiag Iff.rfl rfl ?_
  rw [hread]
  cases readLine s .busy with
  | low => rfl
  | high =>
    refine ite_joinDiag Iff.rfl (ite_joinDiag Iff.rfl rfl rfl) (ite_joinDiag Iff.rfl ?judged rfl)
    refine bindRead_joinDiag (r := judge p { s with busyLast := .high }) fun v => ?_
    cases v with
    | openEnded => exact bind_joinDiag (deliver_joinDiag p d { s with busyLast := .high }) fun _ => rfl
    | more | complete | reply | violation => rfl

theorem receiveCase_joinDiag : receiveCase p (joinDiag d s) = joinDiag d <$> receiveCase p s :=
  bind_joinDiag (processUnits_joinDiag p d s _) fun t =>
    ite_joinDiag Iff.rfl (frameEndCheck_joinDiag p d t) rfl

theorem idleCase_joinDiag : idleCase (joinDiag d s) = joinDiag d (idleCase s) := by
  have hread : readLine (joinDiag d s) .busy = readLine s .busy := rfl
  have hlast : (joinDiag d s).busyLast = s.busyLast := rfl
  unfold idleCase
  rw [hread, hlast]
  cases readLine s .busy <;> cases s.busyLast <;> rfl

theorem asmBody_joinDiag : asmBody p (joinDiag d s) = joinDiag d <$> asmBody p s :=
  ite_joinDiag Iff.rfl (congrArg Except.ok (idleCase_joinDiag d s))
    (ite_joinDiag Iff.rfl
      (ite_joinDiag Iff.rfl (endTransmit_joinDiag p d s) (ite_joinDiag Iff.rfl rfl rfl))
      (ite_joinDiag Iff.rfl (ite_joinDiag Iff.rfl (endTransmit_joinDiag p d s) rfl)
        (receiveCase_joinDiag p d s)))

/-! ### SAMPLE -/

theorem receiveComplete_joinDiag : receiveComplete p (joinDiag d s) = joinDiag d <$> receiveComplete p s :=
  ite_joinDiag Iff.rfl (bind_joinDiag (memWrite_joinDiag p d s .fbuf _ _) fun _ => rfl) rfl

theorem receiveBit_joinDiag : receiveBit p (joinDiag d s) = joinDiag d <$> receiveBit p s :=
  ite_joinDiag Iff.rfl
    (receiveComplete_joinDiag p d
      { s with shift := shiftIn p s.shift (levelBit (readLine s .data)), bitcnt := nextBitcnt p s })
    rfl

theorem transmitComplete_joinDiag : transmitComplete p (joinDiag d s) = joinDiag d <$> transmitComplete p s :=
  ite_joinDiag Iff.rfl (bindRead_joinDiag (r := memRead p .txbuf (s.txidx.toNat + 1) s) fun _ => rfl) rfl

theorem transmitBit_joinDiag : transmitBit p (joinDiag d s) = joinDiag d <$> transmitBit p s :=
  ite_joinDiag Iff.rfl
    (bind_joinDiag (writeLine_joinDiag p d s .data _) fun t =>
      ite_joinDiag Iff.rfl (transmitComplete_joinDiag p d { t with bitcnt := nextBitcnt p s }) rfl)
    (bind_joinDiag (writeLine_joinDiag p d s .data .high) fun _ => rfl)

theorem sampleBody_joinDiag : sampleBody p (joinDiag d s) = joinDiag d <$> sampleBody p s := by
  have htdir : (joinDiag d s).tdir = s.tdir := rfl
  unfold sampleBody
  rw [htdir]
  cases s.tdir with
  | receiving => exact receiveBit_joinDiag p d (takeInterrupt s)
  | transmitting => exact transmitBit_joinDiag p d (takeInterrupt s)

/-! ### The step -/

theorem finish_joinDiag (r : Except Fault State) : finish (joinDiag d <$> r) = mapNext (joinDiag d) (finish r) := by
  cases r <;> rfl

/-- A branch of a step on what no DIAG bit touches. -/
theorem iteStep_joinDiag {c c' : Prop} [Decidable c] [Decidable c'] {x x' y y' : Host.Outcome State Fault Refusal}
    (hc : c' ↔ c) (hx : x' = mapNext (joinDiag d) x) (hy : y' = mapNext (joinDiag d) y) :
    (if c' then x' else y') = mapNext (joinDiag d) (if c then x else y) := by
  rw [if_congr hc hx hy, apply_ite (mapNext (joinDiag d))]

/-- Only SR11 shows the DIAG bits (R36 to R51). -/
theorem statusRegister_joinDiag {n : BitVec 4} (hn : n ≠ 11#4) :
    statusRegister p (joinDiag d s) n = statusRegister p s n := by
  have hn' : n.toNat ≠ 11 := fun h => hn (BitVec.eq_of_toNat_eq h)
  unfold statusRegister
  generalize n.toNat = k at hn'
  split
  case h_12 => exact absurd rfl hn'
  all_goals rfl

/-- Every step but INIT, RESET and RDSR of SR11 commutes with setting DIAG bits, and stops in the same way. -/
theorem execAt_joinDiag {i : Instr} (hinit : i ≠ .init) (hreset : i ≠ .reset) (hsr : i ≠ .rdsr 11#4) :
    execAt p i (joinDiag d s) = mapNext (joinDiag d) (execAt p i s) := by
  cases i with
  | nop | rdline _ | rxlen | ien | idis | iclr | snoop _ | rxack => rfl
  | init => exact absurd rfl hinit
  | reset => exact absurd rfl hreset
  | setdir l m =>
    simp only [execAt, setdirAt, setDirection_joinDiag]
    rfl
  | ext l v =>
    simp only [execAt, extAt, externalChange_joinDiag]
    rfl
  | wrline l v =>
    simp only [execAt, wrlineAt, writeLine_joinDiag]
    cases writeLine p l v s <;> rfl
  | claim =>
    refine iteStep_joinDiag d Iff.rfl ?_ rfl
    rw [claimBus_joinDiag]
    cases claimBus p s <;> rfl
  | txpush imm =>
    refine iteStep_joinDiag d Iff.rfl ?_ rfl
    have hwrite := memWrite_joinDiag p d s .txbuf s.txlen.toNat imm
    have hlen : (joinDiag d s).txlen = s.txlen := rfl
    rw [hlen, hwrite]
    cases memWrite p .txbuf s.txlen.toNat imm s <;> rfl
  | txenq => exact iteStep_joinDiag d Iff.rfl rfl rfl
  | txclr =>
    have htdir : (joinDiag d s).tdir = s.tdir := rfl
    simp only [execAt, txclrAt, htdir]
    cases s.tdir <;> rfl
  | rxrd imm =>
    refine iteStep_joinDiag d Iff.rfl ?_ rfl
    rw [memRead_joinDiag]
    cases memRead p .dbuf imm.toNat s <;> rfl
  | rdsr n =>
    have hn : n ≠ 11#4 := fun h => hsr (congrArg _ h)
    simp only [execAt, rdsrAt, statusRegister_joinDiag p d s hn]
    rfl
  | sample =>
    refine iteStep_joinDiag d Iff.rfl ?_ rfl
    rw [sampleBody_joinDiag, finish_joinDiag]
  | asm =>
    simp only [execAt, asmAt]
    rw [asmBody_joinDiag, finish_joinDiag]

end

/-- Erasing the DIAG bits undoes the setting of any. -/
theorem mapNext_eraseDiag_joinDiag (d : State) (o : Host.Outcome State Fault Refusal) :
    mapNext eraseDiag (mapNext (joinDiag d) o) = mapNext eraseDiag o := by
  cases o with
  | next s => exact congrArg Host.Outcome.next (eraseDiag_joinDiag d s)
  | fault _ | refused _ => rfl

/-- Settles O58: a state is its erasure with its own DIAG bits set, and the step commutes with setting them. INIT and
RESET clear the bits whatever they are. -/
theorem diagBitsChangeNothing : Obligations.DiagBitsChangeNothing := by
  intro p i s hsr
  by_cases hreset : i = .init ∨ i = .reset
  · obtain rfl | rfl := hreset <;> rfl
  · obtain ⟨hi, hr⟩ := not_or.1 hreset
    calc mapNext eraseDiag (execAt p i s)
        = mapNext eraseDiag (execAt p i (joinDiag s (eraseDiag s))) := by rw [joinDiag_eraseDiag]
      _ = mapNext eraseDiag (mapNext (joinDiag s) (execAt p i (eraseDiag s))) := by
        rw [execAt_joinDiag p s (eraseDiag s) hi hr hsr]
      _ = mapNext eraseDiag (execAt p i (eraseDiag s)) := mapNext_eraseDiag_joinDiag s _

/-- A next state with DIAG bits set comes of a next state. -/
theorem mapNext_next {f : State → State} {o : Host.Outcome State Fault Refusal} {t : State}
    (h : mapNext f o = .next t) : ∃ u, o = .next u ∧ t = f u := by
  cases o with
  | next u => exact ⟨u, rfl, next_eq h⟩
  | fault _ | refused _ => cases h

/-- Settles O57, from the same commutation: the next state has the DIAG bits of the state before it among its own. -/
theorem diagBitsAreSticky : Obligations.DiagBitsAreSticky := by
  intro p i s t hinit hreset h
  by_cases hsr : i = .rdsr 11#4
  · subst hsr
    obtain rfl := next_eq h
    exact ⟨id, id, id, id⟩
  · have hcomm := execAt_joinDiag p s (eraseDiag s) hinit hreset hsr
    obtain ⟨u, -, rfl⟩ := mapNext_next (hcomm.symm.trans h)
    simp +contextual [joinDiag]

end Sys2Proof.Machine
end

section
/-! PROOFS. Where SAMPLE does not run (R95, R161, R269). -/

namespace Sys2Proof.Machine

/-- A received bit never faults (R162 to R164). -/
theorem receiveBit_total (p : Params) (s : State) : ∃ t, receiveBit p s = .ok t := by
  cases hc : completesUnit p s with
  | false => exact ⟨_, receiveBit_ok.2 (.inl ⟨hc, rfl⟩)⟩
  | true =>
    obtain hroom | hfull := Nat.lt_or_ge s.flen.toNat p.frameMax
    · exact ⟨_, receiveBit_ok.2 (.inr (.inl ⟨hc, hroom, rfl⟩))⟩
    · exact ⟨_, receiveBit_ok.2 (.inr (.inr ⟨hc, hfull, rfl⟩))⟩

/-- With TXLEN within the capacity the next unit can be read (R166, R58 item 1). -/
theorem transmitComplete_total {p : Params} {s : State} (h : s.txlen.toNat ≤ p.txMax) :
    ∃ t, transmitComplete p s = .ok t := by
  obtain hmore | hlast := Nat.lt_or_ge (s.txidx.toNat + 1) s.txlen.toNat
  · exact ⟨_, transmitComplete_ok.2 (.inl ⟨hmore, hmore.trans_le h, rfl⟩)⟩
  · exact ⟨_, transmitComplete_ok.2 (.inr ⟨hlast, rfl⟩)⟩

/-- A bit is not driven on DATA as an INPUT (R124, R165, R167). -/
theorem transmitBit_input {p : Params} {s : State} (h : s.dir.data = .input) :
    transmitBit p s = .error .callerMisuse := by
  unfold transmitBit
  cases s.txvalid <;> simp [writeLine_input (l := .data) h, bind, Except.bind]

/-- A bit is driven on DATA as an OUTPUT, with TXLEN within the capacity (R165 to R167). -/
theorem transmitBit_total {p : Params} {s : State} (h : s.dir.data = .output) (hlen : s.txlen.toNat ≤ p.txMax) :
    ∃ t, transmitBit p s = .ok t := by
  have hwrite := writeLine_output (p := p) (l := .data) (s := s)
    (v := if s.txvalid then levelOf (wireBit p s.txbyte s.bitcnt.toNat) else .high) h
  cases hv : s.txvalid with
  | false => exact ⟨_, transmitBit_ok.2 ⟨_, hwrite, .inr (.inr ⟨hv, rfl⟩)⟩⟩
  | true =>
    cases hc : completesUnit p s with
    | false => exact ⟨_, transmitBit_ok.2 ⟨_, hwrite, .inl ⟨hv, hc, rfl⟩⟩⟩
    | true =>
      obtain ⟨t, ht⟩ := transmitComplete_total (p := p)
        (s := { edgeDetect p { s with out := s.out.set .data _ } with bitcnt := 0#3 }) (by simpa using hlen)
      exact ⟨t, transmitBit_ok.2 ⟨_, hwrite, .inr (.inl ⟨hv, hc, ht⟩)⟩⟩

/-- SAMPLE is refused exactly where it is not enabled (R95, R161). -/
theorem sampleAt_refused {p : Params} {s : State} :
    sampleAt p s = .refused .sampleNotEnabled ↔ s.ien = false ∨ s.ipend = false := by
  have hfinish : finish (sampleBody p s) ≠ .refused .sampleNotEnabled := by cases sampleBody p s <;> simp [finish]
  unfold sampleAt interruptEnabled
  cases s.ien <;> cases s.ipend <;> simp [hfinish]

/-- SAMPLE faults only where its body does, which is where it is enabled (R161). -/
theorem sampleAt_fault {p : Params} {s : State} {f : Fault} :
    sampleAt p s = .fault f ↔ s.ien = true ∧ s.ipend = true ∧ sampleBody p s = .error f := by
  unfold sampleAt interruptEnabled
  cases s.ien <;> cases s.ipend <;> simp [finish_fault]

/-- The handler faults exactly where it must drive DATA as an INPUT, if TXLEN is within the capacity (R161, R269). -/
theorem sampleBody_fault {p : Params} {s : State} {f : Fault} (hlen : s.txlen.toNat ≤ p.txMax) :
    sampleBody p s = .error f ↔ f = .callerMisuse ∧ s.tdir = .transmitting ∧ s.dir.data = .input := by
  unfold sampleBody
  cases s.tdir with
  | receiving =>
    obtain ⟨t, ht⟩ := receiveBit_total p (takeInterrupt s)
    simp [ht]
  | transmitting =>
    cases hd : s.dir.data with
    | input => simp [transmitBit_input (p := p) (s := takeInterrupt s) hd, eq_comm]
    | output =>
      obtain ⟨t, ht⟩ := transmitBit_total (s := takeInterrupt s) hd hlen
      simp [ht]

/-- Settles O21: refused where it is not enabled, and faulting where the handler does. -/
theorem sampleStops : Obligations.SampleStops := by
  intro s
  refine ⟨sampleAt_refused.symm, fun hien hipend htdir hdata => ?_, fun hlen f h => ?_⟩
  · refine sampleAt_fault.2 ⟨hien, hipend, ?_⟩
    unfold sampleBody
    rw [htdir]
    exact transmitBit_input hdata
  · obtain ⟨hien, hipend, hbody⟩ := sampleAt_fault.1 h
    obtain ⟨hf, htdir, hdata⟩ := (sampleBody_fault hlen).1 hbody
    exact ⟨hf, hien, hipend, htdir, hdata⟩

end Sys2Proof.Machine
end

section
/-! PROOFS. The status registers (R35 to R51), and the state after RESET and INIT (R234, R290). -/

namespace Sys2Proof.Machine

/-! ### The bits of a byte -/

/-- A byte is the sum of its bits (R17). -/
theorem byteOf_toNat (b7 b6 b5 b4 b3 b2 b1 b0 : Bool) : (byteOf b7 b6 b5 b4 b3 b2 b1 b0).toNat =
    b0.toNat + 2 * b1.toNat + 4 * b2.toNat + 8 * b3.toNat + 16 * b4.toNat + 32 * b5.toNat + 64 * b6.toNat +
      128 * b7.toNat := by
  revert b7 b6 b5 b4 b3 b2 b1 b0
  decide

/-- A number of four bits is the sum of them. -/
theorem testBit_sum : ∀ n < 16, (n.testBit 0).toNat + 2 * (n.testBit 1).toNat + 4 * (n.testBit 2).toNat +
    8 * (n.testBit 3).toNat = n := by decide

/-! ### Flags -/

theorem phaseCode_sum (ph : Phase) :
    ((phaseCode ph).getLsbD 0).toNat + 2 * ((phaseCode ph).getLsbD 1).toNat =
      match ph with | .idle => 0 | .addressPhase => 1 | .payloadPhase => 2 | .responding => 3 := by
  cases ph <;> rfl

theorem transferBit_toNat (d : Transfer) : 4 * (transferBit d).toNat = if d = .transmitting then 4 else 0 := by
  cases d <;> rfl

theorem levelBit_toNat (v : Level) (n : Nat) : n * (levelBit v).toNat = if v = .high then n else 0 := by
  cases v <;> simp [levelBit]

theorem directionBit_toNat (m : Direction) (n : Nat) :
    n * (directionBit m).toNat = if m = .output then n else 0 := by
  cases m <;> simp [directionBit]

theorem statusSR_toNat (s : State) : (statusSR s).toNat =
    (match s.phase with | .idle => 0 | .addressPhase => 1 | .payloadPhase => 2 | .responding => 3) +
      (if s.tdir = .transmitting then 4 else 0) + 8 * s.addressed.toNat + 16 * s.master.toNat +
      32 * s.frdy.toNat + 64 * s.txq.toNat + 128 * s.snoop.toNat := by
  rw [statusSR, byteOf_toNat, phaseCode_sum, transferBit_toNat]

theorem flagsSR_toNat (s : State) : (flagsSR s).toNat =
    s.ien.toNat + 2 * s.ipend.toNat + 4 * s.fovf.toNat + 8 * s.txdone.toNat + 16 * s.txvalid.toNat +
      (if s.busyLast = .high then 32 else 0) + (if s.clkPrev = .high then 64 else 0) + 128 * s.dobs.toNat := by
  rw [flagsSR, byteOf_toNat, levelBit_toNat, levelBit_toNat]

theorem linesSR_toNat (s : State) : (linesSR s).toNat =
    (if s.dir.clock = .output then 1 else 0) + (if s.dir.data = .output then 2 else 0) +
      (if s.dir.busy = .output then 4 else 0) + (if s.out.clock = .high then 16 else 0) +
      (if s.out.data = .high then 32 else 0) + (if s.out.busy = .high then 64 else 0) := by
  have hclock := directionBit_toNat s.dir.clock 1
  rw [Nat.one_mul] at hclock
  rw [linesSR, byteOf_toNat, hclock]
  simp only [directionBit_toNat, levelBit_toNat, Bool.toNat_false, Nat.mul_zero, Nat.add_zero]

theorem diagSR_toNat (s : State) : (diagSR s).toNat =
    s.elost.toNat + 2 * s.fdisc.toNat + 4 * s.fdrop.toNat + 8 * s.noreply.toNat := by
  rw [diagSR, byteOf_toNat]
  simp

theorem configSR_toNat {p : Params} (h : p.bpu ≤ 8) : (configSR p).toNat =
    p.bpu + (if p.bitOrder = .lsbFirst then 16 else 0) + (if p.clkEdge = .falling then 32 else 0) := by
  rw [configSR, byteOf_toNat, testBit_sum p.bpu (by omega)]
  cases p.bitOrder <;> cases p.clkEdge <;> rfl

/-- Settles O44: RDSR answers the register, and each register of flags is the sum of its bits. -/
theorem flagStatusRegisters : Obligations.FlagStatusRegisters := by
  refine ⟨fun n s => rfl, fun p s =>
    ⟨statusSR_toNat s, flagsSR_toNat s, linesSR_toNat s, ?bitcnt, diagSR_toNat s,
    BitVec.eq_of_toNat_eq (statusSR_toNat (resetBlock s)), ?flags,
    BitVec.eq_of_toNat_eq (linesSR_toNat (resetBlock s)), rfl,
    BitVec.eq_of_toNat_eq (diagSR_toNat (resetBlock s))⟩⟩
  case bitcnt => exact BitVec.toNat_setWidth_of_le (by decide)
  case flags =>
    have hseen : (resetBlock s).clkPrev = wire (resetBlock s) .clock := rfl
    apply BitVec.eq_of_toNat_eq
    change (flagsSR (resetBlock s)).toNat = _
    rw [flagsSR_toNat, hseen]
    cases wire (resetBlock s) .clock <;> rfl

/-- Settles O45: each of the registers is the field or the parameter it shows. -/
theorem fieldStatusRegisters : Obligations.FieldStatusRegisters := by
  intro p s hp
  refine ⟨⟨rfl, rfl, rfl, rfl, rfl, rfl, rfl, rfl⟩, fun n hlow hhigh => ?reset, configSR_toNat hp.bpu_le, ?frameMax,
    ?txMax, rfl, rfl, rfl⟩
  case reset =>
    unfold statusRegister
    generalize n.toNat = k at hlow hhigh
    interval_cases k <;> rfl
  case frameMax => exact Nat.mod_eq_of_lt (Nat.lt_succ_of_le hp.frameMax_le)
  case txMax => exact Nat.mod_eq_of_lt (Nat.lt_succ_of_le hp.txMax_le)

/-- Settles O16: RESET always answers, and INIT answers the same state with the response 0x00. -/
theorem resetAndInitResult : Obligations.ResetAndInitResult := by
  intro s
  have hinit : exec .init s = .next { resetBlock s with rsp := 0x00#8 } := rfl
  have hwire : wire (resetBlock s) .clock = s.extLevel.clock := resetBlock_clkPrev s
  have hbuf : ∀ b a, ((resetBlock s).buf b).read a = 0#8 := fun b a => by cases b <;> rfl
  exact ⟨resetBlock s, rfl, hinit, by simp [hwire, hbuf, State.reset]⟩

end Sys2Proof.Machine
end

section
/-! PROOFS. What a presented word makes of a step (R70, R95; logs 1 and 9). -/

namespace Sys2Proof.Machine

/-- A host command on the port stands for a step (R95). -/
theorem fetch_port {p : Params} {w : Word} {i : Instr} (hd : decode p.bpu w = .ok i) (hi : i.isLabel = false) :
    fetch p (.port w) = .run i := by
  simp [fetch, hd, hi]

/-- A label word as a label stands for a step (R95). -/
theorem fetch_label {p : Params} {w : Word} {i : Instr} (hd : decode p.bpu w = .ok i) (hi : i.isLabel = true) :
    fetch p (.label w) = .run i := by
  simp [fetch, hd, hi]

/-- A word that is no label word stands for nothing as a label (R95). -/
theorem fetch_notALabel {p : Params} {w : Word} (h : ∀ i, decode p.bpu w = .ok i → i.isLabel = false) :
    fetch p (.label w) = .notALabel := by
  cases hd : decode p.bpu w with
  | ok i => simp [fetch, hd, h i hd]
  | error e => simp [fetch, hd]

/-- A word that stands for an instruction is taken off the schedule, and the instruction is run (R70). -/
theorem step_run {s : State} {e : Presented} {rest : List Presented} {i : Instr} (hp : s.pending = e :: rest)
    (hf : fetch Config.params e = .run i) : step s = exec i { s with pending := rest } := by
  simp [step, hp, hf]

/-- A label entry that is no label has no successor (log 9). -/
theorem step_notALabel {s : State} {e : Presented} {rest : List Presented} (hp : s.pending = e :: rest)
    (hf : fetch Config.params e = .notALabel) : step s = .refused .notALabel := by
  simp [step, hp, hf]

/-- Settles O5, for a host command and for a label word. -/
theorem stepRunsTheDecodedInstruction : Obligations.StepRunsTheDecodedInstruction := fun _ _ _ _ hd =>
  ⟨fun hi hp => step_run hp (fetch_port hd hi), fun hi hp => step_run hp (fetch_label hd hi)⟩

/-- Settles O7, for the empty schedule and for an entry that stands for nothing. -/
theorem scheduleConventions : Obligations.ScheduleConventions :=
  ⟨fun s hp => by simp [step, hp], fun _ _ _ hp hw => step_notALabel hp (fetch_notALabel hw)⟩

end Sys2Proof.Machine
end

section
/-! PROOFS. The buffers: every step keeps them canonical (R60, R252), and the frames that belong to the host or to the
block are kept (R67). -/

namespace Sys2Proof.Machine

/-! ### Canonical form -/

theorem buffersWf_resetBlock (p : Params) (s : State) : BuffersWf p (resetBlock s) := ⟨rfl, rfl, rfl⟩

theorem buffersWf_writeLine {p : Params} {l : Line} {v : Level} {s t : State} (hs : BuffersWf p s)
    (h : writeLine p l v s = .ok t) : BuffersWf p t := by
  obtain ⟨-, rfl⟩ := writeLine_ok.1 h
  rw [edgeDetect_eq]
  exact { hs with }

/-- Of all that ASM does only a delivery stores, and it keeps DBUF canonical (R190, R252). -/
theorem asmKeeps_buffersWf (p : Params) : AsmKeeps p (BuffersWf p) where
  busySeen _ _ h := { h with }
  frameStarts _ _ h := { h with }
  payloadOpens _ _ h := { h with }
  transmitEnds s t h ht := by
    obtain ⟨-, -, rfl⟩ := endTransmit_ok.1 ht
    rw [edgeDetect_eq]
    exact { h with }
  unitExamined s _ _ h := by rw [examined_eq]; exact { h with }
  frameDelivered s t h ht := by
    obtain ⟨-, rfl⟩ | ⟨-, -, m, rfl, -, hm⟩ := deliver_ok ht
    · exact { h with }
    · exact { h with dbuf_wf := (hm h.dbuf_wf).1 }
  diagSet _ _ _ h := { h with }
  frameEnds _ _ _ h := { h with }
  responseBegins s t _ _ _ h ht := by
    rw [beginResponse_eq (txMax_pos_of_beginResponse ht), edgeDetect_eq] at ht
    cases ht
    exact { h with }

/-- SAMPLE stores inside FBUF only (R164, R252). -/
theorem buffersWf_sample {p : Params} {s t : State} (hs : BuffersWf p s) (h : sampleAt p s = .next t) :
    BuffersWf p t := by
  have htaken : BuffersWf p (takeInterrupt s) := { hs with }
  obtain ⟨-, -, ⟨-, h⟩ | ⟨-, h⟩⟩ := sampleAt_next.1 h
  · obtain ⟨-, rfl⟩ | ⟨-, hroom, rfl⟩ | ⟨-, -, rfl⟩ := receiveBit_ok.1 h
    · exact { hs with }
    · exact { hs with fbuf_wf := wf_write _ hs.fbuf_wf hroom }
    · exact { hs with }
  · obtain ⟨u, hu, h⟩ := transmitBit_ok.1 h
    have hdriven := buffersWf_writeLine htaken hu
    obtain ⟨-, -, rfl⟩ | ⟨-, -, h⟩ | ⟨-, rfl⟩ := h
    · exact { hdriven with }
    · obtain ⟨-, -, rfl⟩ | ⟨-, rfl⟩ := transmitComplete_ok.1 h <;> exact { hdriven with }
    · exact { hdriven with }

theorem buffersWf_claimBus {p : Params} {s t : State} (hs : BuffersWf p s) (h : claimBus p s = .ok t) :
    BuffersWf p t := by
  rw [claimBus_eq (txMax_pos_of_claimBus h), edgeDetect_eq] at h
  cases h
  exact { hs with }

theorem buffersWf_execAt {p : Params} {i : Instr} {s t : State} (hs : BuffersWf p s)
    (h : execAt p i s = .next t) : BuffersWf p t := by
  have hr := execAt_result h
  cases i with
  | nop | rdline _ | rxlen | rxrd _ | rdsr _ => obtain ⟨r, rfl⟩ := hr; exact { hs with }
  | ien | idis | iclr | snoop _ | rxack => obtain rfl := hr; exact { hs with }
  | setdir _ _ => obtain rfl := hr; rw [setDirection, edgeDetect_eq]; exact { hs with }
  | ext _ _ => obtain rfl := hr; rw [externalChange, edgeDetect_eq]; exact { hs with }
  | wrline _ _ => obtain ⟨u, hu, rfl⟩ := hr; exact { buffersWf_writeLine hs hu with }
  | init => obtain rfl := hr; exact { buffersWf_resetBlock p s with }
  | reset => obtain rfl := hr; exact buffersWf_resetBlock p s
  | claim =>
    obtain ⟨-, u, hu, rfl⟩ | rfl := hr
    · exact { buffersWf_claimBus hs hu with }
    · exact { hs with }
  | txpush _ =>
    obtain ⟨-, hroom, rfl⟩ | rfl := hr
    · exact { hs with txbuf_wf := wf_write _ hs.txbuf_wf hroom }
    · exact { hs with }
  | txenq => obtain ⟨-, rfl⟩ | rfl := hr <;> exact { hs with }
  | txclr => obtain ⟨-, rfl⟩ | rfl := hr <;> exact { hs with }
  | sample => exact buffersWf_sample hs hr
  | asm => exact (asmKeeps_buffersWf p).step hs hr

/-- Settles O49, instruction by instruction; the schedule holds no buffer. -/
theorem stepKeepsBuffersWf : Obligations.StepKeepsBuffersWf := by
  refine ⟨fun p i s t hs h => buffersWf_execAt hs h, fun s t hs h => ?_⟩
  obtain ⟨-, rfl⟩ | ⟨e, rest, -, ⟨i, -, h⟩ | ⟨-, rfl⟩⟩ := step_next h
  · exact hs
  · exact buffersWf_execAt (s := { s with pending := rest }) { hs with } h
  · exact { hs with }

end Sys2Proof.Machine
end

section
/-! PROOFS. The sampler reconstructs the unit that is clocked in (R170 a): what SHIFT holds after each bit, what one
clock pulse does, and the bits of a unit one after the other. -/

namespace Sys2Proof.Machine

/-! ### SHIFT -/

/-- SHIFT after the first `j` bits of a unit, in wire order, have been shifted into an empty one (R62, R162). -/
def shiftedIn (p : Params) (u : Byte) : Nat → Byte
  | 0 => 0#8
  | j + 1 => shiftIn p (shiftedIn p u j) (wireBit p u j)

/-- A number without its low `k` bits is twice the number without one more, and the bit number `k`. -/
theorem div_two_pow_eq (n k : Nat) : 2 * (n / 2 ^ (k + 1)) + (n.testBit k).toNat = n / 2 ^ k := by
  rw [Nat.toNat_testBit, Nat.pow_succ, ← Nat.div_div_eq_div_mul]
  exact Nat.div_add_mod _ 2

/-- Most significant bit first, SHIFT holds the leading `j` bits of the unit (R62, R162). -/
theorem shiftedIn_msbFirst {p : Params} {u : Byte} (hp : p.Valid) (ho : p.bitOrder = .msbFirst)
    (hu : u.toNat < 2 ^ p.bpu) {j : Nat} (hj : j ≤ p.bpu) :
    (shiftedIn p u j).toNat = u.toNat / 2 ^ (p.bpu - j) := by
  induction j with
  | zero => simp [shiftedIn, Nat.div_eq_of_lt hu]
  | succ j ih =>
    have hk : p.bpu - j = p.bpu - 1 - j + 1 := by omega
    have hsum := div_two_pow_eq u.toNat (p.bpu - 1 - j)
    have hlt : u.toNat / 2 ^ (p.bpu - 1 - j) < 2 ^ p.bpu := (Nat.div_le_self _ _).trans_lt hu
    have hbyte : 2 ^ p.bpu ≤ 2 ^ 8 := Nat.pow_le_pow_right (by decide) hp.bpu_le
    have hbit : wireBit p u j = u.toNat.testBit (p.bpu - 1 - j) := by
      simp [wireBit, wireIndex, ho, BitVec.getLsbD]
    rw [shiftedIn, shiftIn, ho]
    simp only [hbit, ih (by omega), hk, hsum, Nat.mod_eq_of_lt hlt, BitVec.toNat_ofNat]
    rw [Nat.mod_eq_of_lt (hlt.trans_le hbyte), Nat.sub_sub, Nat.add_comm 1 j]

/-- One bit at the place `n` of a byte. -/
theorem getLsbD_bit_mul (b : Bool) (n i : Nat) :
    (BitVec.ofNat 8 (b.toNat * 2 ^ n)).getLsbD i = (decide (i = n ∧ i < 8) && b) := by
  cases b with
  | false => simp
  | true =>
    rw [BitVec.getLsbD_ofNat, Bool.toNat_true, Nat.one_mul, Nat.testBit_two_pow]
    simp [eq_comm, Bool.and_comm]

/-- Least significant bit first, SHIFT holds the low `j` bits of the unit at its upper end (R62, R162). -/
theorem shiftedIn_lsbFirst {p : Params} {u : Byte} (hp : p.Valid) (ho : p.bitOrder = .lsbFirst) {j : Nat}
    (hj : j ≤ p.bpu) (i : Nat) :
    (shiftedIn p u j).getLsbD i = (decide (p.bpu - j ≤ i ∧ i < p.bpu) && u.getLsbD (i + j - p.bpu)) := by
  have hpos := hp.bpu_pos
  have hle := hp.bpu_le
  induction j generalizing i with
  | zero => simp [shiftedIn]
  | succ j ih =>
    have hbit : wireBit p u j = u.getLsbD j := by simp [wireBit, wireIndex, ho]
    rw [shiftedIn, shiftIn, ho]
    simp only [hbit, BitVec.getLsbD_or, BitVec.getLsbD_ushiftRight, ih (by omega), getLsbD_bit_mul]
    by_cases hi : i = p.bpu - 1
    · have hlast : i + (j + 1) - p.bpu = j := by omega
      rw [hlast, decide_eq_false (by omega), decide_eq_true (by omega), decide_eq_true (by omega)]
      simp
    · have hnext : 1 + i + j - p.bpu = i + (j + 1) - p.bpu := by omega
      have hrange : decide (p.bpu - j ≤ 1 + i ∧ 1 + i < p.bpu) = decide (p.bpu - (j + 1) ≤ i ∧ i < p.bpu) :=
        decide_eq_decide.2 (by omega)
      rw [hnext, hrange, decide_eq_false (p := i = p.bpu - 1 ∧ i < 8) (by omega)]
      simp

/-- After all its bits SHIFT holds the unit (R162). -/
theorem shiftedIn_unit {p : Params} {u : Byte} (hp : p.Valid) (hu : u.toNat < 2 ^ p.bpu) :
    shiftedIn p u p.bpu = u := by
  cases ho : p.bitOrder with
  | msbFirst =>
    apply BitVec.eq_of_toNat_eq
    simp [shiftedIn_msbFirst hp ho hu le_rfl]
  | lsbFirst =>
    apply BitVec.eq_of_getLsbD_eq
    intro i _
    have habove : p.bpu ≤ i → u.getLsbD i = false := fun h =>
      Nat.testBit_lt_two_pow (hu.trans_le (Nat.pow_le_pow_right (by decide) h))
    rw [shiftedIn_lsbFirst hp ho le_rfl]
    by_cases hi : i < p.bpu
    · simp [hi]
    · simp [hi, habove (by omega)]

/-! ### One bit -/

/-- The level of CLOCK after a pulse, whose last change is the active edge (R13). -/
def activeLevel (p : Params) : Level :=
  match p.clkEdge with
  | .rising => .high
  | .falling => .low

/-- The state in which a receiver takes the bit `b`: the bit is on DATA and CLOCK has had its pulse (R99). -/
def bitPresented (p : Params) (b : Bool) (s : State) : State :=
  { s with extLevel := ⟨activeLevel p, levelOf b, s.extLevel.busy⟩, clkPrev := activeLevel p }

/-- A receiver that listens on CLOCK and DATA, its interrupt on and no edge pending (R170). -/
structure Listening (s : State) : Prop where
  ien : s.ien = true
  ipend : s.ipend = false
  tdir : s.tdir = .receiving
  clock_input : s.dir.clock = .input
  data_input : s.dir.data = .input
  seen : clockSeen s

theorem execAt_ext (p : Params) (l : Line) (v : Level) (s : State) :
    execAt p (.ext l v) s = .next (externalChange p l v s) := rfl

/-- EXT on CLOCK as an INPUT, with no edge pending (R128, R141): the detector compares the new level with the old. -/
theorem externalChange_clock {p : Params} {v : Level} {s : State} (hc : s.dir.clock = .input)
    (hi : s.ipend = false) :
    externalChange p .clock v s = { s with
      extLevel := s.extLevel.set .clock v, ipend := activeEdge p.clkEdge s.clkPrev v, clkPrev := v } := by
  have hw : wire { s with extLevel := s.extLevel.set .clock v } .clock = v := wire_input (l := .clock) hc
  rw [externalChange, edgeDetect_eq, edgeFound, hw]
  simp [hi]

/-- EXT on DATA makes no edge (R128, R141). -/
theorem externalChange_data {p : Params} {v : Level} {s : State} (h : clockSeen s) :
    externalChange p .data v s = { s with extLevel := s.extLevel.set .data v } :=
  edgeDetect_same h

/-- The steps of two lists, one list after the other. -/
theorem runSteps_append (p : Params) (is js : List Instr) (s : State) :
    runSteps p (is ++ js) s = (runSteps p is s).bind (runSteps p js) := by
  induction is generalizing s with
  | nil => rfl
  | cons i is ih =>
    simp only [List.cons_append, runSteps]
    cases execAt p i s with
    | next t => exact ih t
    | fault _ | refused _ => rfl

/-- One more round of a repeated list of steps. -/
theorem runSteps_flatMap_succ {p : Params} {f : Nat → List Instr} {n : Nat} {s t : State}
    (h : runSteps p ((List.range n).flatMap f) s = some t) :
    runSteps p ((List.range (n + 1)).flatMap f) s = runSteps p (f n) t := by
  simp [List.range_succ, runSteps_append, h]

/-- One step and then a list. -/
theorem runSteps_cons {p : Params} {i : Instr} {is : List Instr} {s t : State} (h : execAt p i s = .next t) :
    runSteps p (i :: is) s = runSteps p is t := by
  simp [runSteps, h]

/-- One pulse of the clock makes one active edge pending, whatever CLK_EDGE is (R13, R99, R141). -/
theorem runSteps_clockPulse {p : Params} {s : State} (hc : s.dir.clock = .input) (hi : s.ipend = false) :
    runSteps p (clockPulse p) s = some { s with
      extLevel := s.extLevel.set .clock (activeLevel p), ipend := true, clkPrev := activeLevel p } := by
  cases he : p.clkEdge <;>
    simp [clockPulse, activeLevel, he, runSteps, execAt_ext, externalChange_clock, hc, hi, activeEdge]

/-- RXBIT b: the sampler takes the bit that is on DATA (R99, R161). -/
theorem runSteps_rxBit {p : Params} {b : Bool} {s t : State} (h : Listening s) :
    runSteps p (rxBit p b) s = some t ↔ receiveBit p (bitPresented p b s) = .ok t := by
  obtain ⟨hien, hipend, htdir, hclock, -, hseen⟩ := h
  obtain ⟨r, hr⟩ := receiveBit_total p (bitPresented p b s)
  have hpulse := runSteps_clockPulse (p := p) (s := { s with extLevel := s.extLevel.set .data (levelOf b) })
    hclock hipend
  have hsample : sampleAt p { s with
      extLevel := ⟨activeLevel p, levelOf b, s.extLevel.busy⟩, ipend := true, clkPrev := activeLevel p } = .next r := by
    refine sampleAt_next.2 ⟨hien, rfl, .inl ⟨htdir, ?_⟩⟩
    rw [← hr, takeInterrupt, bitPresented, hipend]
  rw [rxBit, runSteps_cons (execAt_ext p .data _ s), externalChange_data hseen, runSteps_append, hpulse, hr]
  simp [runSteps, execAt, hsample]

/-- What a receiver hears on DATA is the bit that is there (R125). -/
theorem levelBit_readLine_bitPresented {p : Params} {b : Bool} {s : State} (h : s.dir.data = .input) :
    levelBit (readLine (bitPresented p b s) .data) = b := by
  rw [readLine_input (s := bitPresented p b s) (l := .data) h]
  cases b <;> rfl

/-- With the bit on DATA and the pulse over, the edge detector has seen CLOCK (R25). -/
theorem listening_bitPresented {p : Params} {b : Bool} {s : State} (h : Listening s) :
    Listening (bitPresented p b s) :=
  { h with seen := (wire_input (s := bitPresented p b s) (l := .clock) h.clock_input).symm }

/-- RXBIT b inside a unit: the bit goes to SHIFT (R162, R163). -/
theorem runSteps_rxBit_inside {p : Params} {b : Bool} {s : State} (h : Listening s)
    (hc : s.bitcnt.toNat + 1 ≠ p.bpu) :
    runSteps p (rxBit p b) s =
      some { bitPresented p b s with shift := shiftIn p s.shift b, bitcnt := nextBitcnt p s } := by
  have hinside : completesUnit p (bitPresented p b s) = false := Bool.eq_false_iff.2 (mt completesUnit_iff.1 hc)
  have hbit := receiveBit_ok.2 (.inl ⟨hinside, rfl⟩)
  rw [levelBit_readLine_bitPresented h.data_input] at hbit
  exact (runSteps_rxBit h).2 hbit

/-- RXBIT b at the end of a unit, with room in FBUF: the unit is appended (R163, R164). -/
theorem runSteps_rxBit_last {p : Params} {b : Bool} {s : State} (h : Listening s)
    (hc : s.bitcnt.toNat + 1 = p.bpu) (hroom : s.flen.toNat < p.frameMax) :
    runSteps p (rxBit p b) s =
      some { bitPresented p b s with
        fbuf := s.fbuf.write s.flen.toNat (shiftIn p s.shift b), flen := s.flen + 1#8, shift := 0#8,
        bitcnt := 0#3 } := by
  have hlast : completesUnit p (bitPresented p b s) = true := completesUnit_iff.2 hc
  have hbit := receiveBit_ok.2 (.inr (.inl ⟨hlast, hroom, rfl⟩))
  rw [levelBit_readLine_bitPresented h.data_input] at hbit
  exact (runSteps_rxBit h).2 hbit

/-! ### One unit -/

/-- A receiver `t` that has taken the first `j` bits of a unit since `s`: SHIFT and BITCNT have counted them, and
nothing else has changed but the lines (R162, R163). -/
structure HasTaken (p : Params) (u : Byte) (j : Nat) (s t : State) : Prop where
  listening : Listening t
  frame : t = { s with
    shift := shiftedIn p u j, bitcnt := BitVec.ofNat 3 j, extLevel := t.extLevel, clkPrev := t.clkPrev }

theorem HasTaken.bitcnt_toNat {p : Params} {u : Byte} {j : Nat} {s t : State} (h : HasTaken p u j s t)
    (hp : p.Valid) (hj : j < p.bpu) : t.bitcnt.toNat = j := by
  have := hp.bpu_le
  rw [h.frame, BitVec.toNat_ofNat]
  exact Nat.mod_eq_of_lt (by omega)

/-- The bits of a unit but the last, one after the other (R99, R162). -/
theorem runSteps_bits {p : Params} {u : Byte} {s : State} (hp : p.Valid) (h : Listening s)
    (hbitcnt : s.bitcnt = 0#3) (hshift : s.shift = 0#8) {j : Nat} (hj : j < p.bpu) :
    ∃ t, runSteps p ((List.range j).flatMap fun k => rxBit p (wireBit p u k)) s = some t ∧ HasTaken p u j s t := by
  induction j with
  | zero => exact ⟨s, rfl, h, by rw [shiftedIn, ← hbitcnt, ← hshift]⟩
  | succ j ih =>
    obtain ⟨t, ht, taken⟩ := ih (by omega)
    have hcnt := taken.bitcnt_toNat hp (by omega)
    have hinside : t.bitcnt.toNat + 1 ≠ p.bpu := by omega
    have hnext : nextBitcnt p t = BitVec.ofNat 3 (j + 1) := by rw [nextBitcnt, if_neg hinside, hcnt]
    have hlistening : Listening (bitPresented p (wireBit p u j) t) := listening_bitPresented taken.listening
    have hrun := runSteps_rxBit_inside (b := wireBit p u j) taken.listening hinside
    refine ⟨_, (runSteps_flatMap_succ ht).trans hrun, { hlistening with }, ?_⟩
    rw [hnext, taken.frame]
    rfl

/-- RXUNIT u appends u, and nothing else changes but the lines (R99, R164). -/
theorem runSteps_rxUnit {p : Params} {u : Byte} {s : State} (hp : p.Valid) (hu : u.toNat < 2 ^ p.bpu)
    (h : Listening s) (hbitcnt : s.bitcnt = 0#3) (hshift : s.shift = 0#8) (hroom : s.flen.toNat < p.frameMax) :
    ∃ ext clk, runSteps p (rxUnit p u) s = some { s with
      fbuf := s.fbuf.write s.flen.toNat u, flen := s.flen + 1#8, extLevel := ext, clkPrev := clk } := by
  obtain ⟨n, hn⟩ : ∃ n, p.bpu = n + 1 := Nat.exists_eq_add_one.2 hp.bpu_pos
  obtain ⟨t, ht, taken⟩ := runSteps_bits (u := u) hp h hbitcnt hshift (j := n) (by omega)
  have hlast : t.bitcnt.toNat + 1 = p.bpu := by rw [taken.bitcnt_toNat hp (by omega), hn]
  have hroomt : t.flen.toNat < p.frameMax := by rw [taken.frame]; exact hroom
  have hunit : shiftIn p t.shift (wireBit p u n) = u := by
    rw [taken.frame]
    exact (congrArg (shiftedIn p u) hn.symm).trans (shiftedIn_unit hp hu)
  refine ⟨⟨activeLevel p, levelOf (wireBit p u n), t.extLevel.busy⟩, activeLevel p, ?_⟩
  rw [rxUnit, hn, runSteps_flatMap_succ ht, runSteps_rxBit_last taken.listening hlast hroomt, hunit, taken.frame,
    hbitcnt, hshift]
  rfl

/-- Settles O22: the bits before the last one leave SHIFT and BITCNT as they must be, and the last one appends the unit
that SHIFT then holds. -/
theorem samplerReconstructsTheUnit : Obligations.SamplerReconstructsTheUnit := by
  intro p s u hp hu hien hipend htdir hclock hdata hbitcnt hshift hroom hwf hseen
  obtain ⟨ext, clk, ht⟩ :=
    runSteps_rxUnit hp hu ⟨hien, hipend, htdir, hclock, hdata, hseen⟩ hbitcnt hshift hroom
  exact ⟨_, ht, rfl, read_write_same _ _ hwf, hbitcnt, hshift, fun a ha => read_write_other u ha, rfl⟩

end Sys2Proof.Machine
end

section
/-! PROOFS. The engine never faults by itself (R126, R269): the procedures succeed inside the invariants of R58. -/

namespace Sys2Proof.Machine

/-! ### ASM -/

/-- Up to the capacity the units can be judged (R186). -/
theorem judge_total {p : Params} {s : State} (h : s.fproc.toNat ≤ p.frameMax) : ∃ v, judge p s = .ok v :=
  ⟨_, judge_ok.2 ⟨h, rfl⟩⟩

theorem reply_total {p : Params} {s : State} (hp : p.Valid) (h : s.fproc.toNat ≤ p.frameMax) :
    ∃ t, reply p s = .ok t := by
  obtain ⟨u, hu⟩ := deliver_total h
  cases hq : u.txq with
  | true => exact ⟨_, reply_ok.2 ⟨u, hu, .inl ⟨hq, beginResponse_eq hp.txMax_pos u⟩⟩⟩
  | false => exact ⟨_, reply_ok.2 ⟨u, hu, .inr ⟨hq, rfl⟩⟩⟩

theorem judgeAndAct_total {p : Params} {s : State} (hp : p.Valid) (h : s.fproc.toNat ≤ p.frameMax) :
    ∃ t, judgeAndAct p s = .ok t := by
  obtain ⟨v, hv⟩ := judge_total h
  obtain ⟨u, hu⟩ := deliver_total h
  obtain ⟨r, hr⟩ := reply_total hp h
  cases v with
  | more => exact ⟨s, judgeAndAct_ok.2 (.inl ⟨.inl hv, rfl⟩)⟩
  | openEnded => exact ⟨s, judgeAndAct_ok.2 (.inl ⟨.inr hv, rfl⟩)⟩
  | complete => exact ⟨_, judgeAndAct_ok.2 (.inr (.inl ⟨hv, u, hu, rfl⟩))⟩
  | violation => exact ⟨_, judgeAndAct_ok.2 (.inr (.inr (.inl ⟨hv, rfl⟩)))⟩
  | reply => exact ⟨r, judgeAndAct_ok.2 (.inr (.inr (.inr ⟨hv, hr⟩)))⟩

/-- A unit that the sampler has appended can be examined (R185). -/
theorem processUnit_total {p : Params} {s : State} (hp : p.Valid) (h : BlockInv p s)
    (hlt : s.fproc.toNat < s.flen.toNat) (hr : receivingPhase s = true) : ∃ t, processUnit p s = .ok t := by
  have hexamined := blockInv_examined h hlt hr
  obtain ⟨t, ht⟩ := judgeAndAct_total hp (hexamined.fproc_le.trans hexamined.flen_le)
  by_cases hs : s.phase = .addressPhase
  · rw [processUnit_address hs hp.frameMax_pos]
    split
    · exact ⟨_, rfl⟩
    · exact ⟨t, ht⟩
  · exact ⟨t, (processUnit_payload hs).trans ht⟩

/-- All units that the sampler has appended can be examined, the invariants of R58 holding along the loop (R184). -/
theorem processUnits_total {p : Params} {s : State} (hp : p.Valid) (h : BlockInv p s) (hm : s.master = false)
    (n : Nat) : ∃ t, processUnits p n s = .ok t ∧ BlockInv p t := by
  induction n generalizing s with
  | zero => exact ⟨s, rfl, h⟩
  | succ n ih =>
    by_cases hc : s.fproc.toNat < s.flen.toNat ∧ receivingPhase s = true
    · obtain ⟨u, hu⟩ := processUnit_total hp h hc.1 hc.2
      obtain ⟨hinv, hmaster⟩ := (asmKeeps_blockInv hp).unitProcessed hc.1 hc.2 hm h hu
      obtain ⟨t, ht, hend⟩ := ih hinv hmaster
      exact ⟨t, (processUnits_succ hc.1 hc.2).2 ⟨u, hu, ht⟩, hend⟩
    · exact ⟨s, processUnits_none hc, h⟩

/-- The end of the frame can be checked (R195). -/
theorem frameEndCheck_total {p : Params} {s : State} (h : s.fproc.toNat ≤ p.frameMax) :
    ∃ t, frameEndCheck p s = .ok t := by
  obtain ⟨v, hv⟩ := judge_total (s := { s with busyLast := .high }) h
  obtain ⟨u, hu⟩ := deliver_total (s := { s with busyLast := .high }) h
  cases hovf : s.fovf with
  | true => exact ⟨_, frameEndCheck_ok.2 (.inl ⟨hovf, rfl⟩)⟩
  | false =>
    cases hbusy : readLine s .busy with
    | low => exact ⟨_, frameEndCheck_ok.2 (.inr (.inl ⟨hovf, hbusy, rfl⟩))⟩
    | high =>
      by_cases hbits : s.bitcnt = 0#3
      · by_cases hunits : s.fproc = 0#8
        · exact ⟨_, frameEndCheck_ok.2 (.inr (.inr (.inr (.inl ⟨hovf, hbusy, hbits, hunits, rfl⟩))))⟩
        · by_cases hopen : v = .openEnded
          · exact ⟨_, frameEndCheck_ok.2 (.inr (.inr (.inr (.inr
              ⟨hovf, hbusy, hbits, hunits, v, hv, .inl ⟨hopen, u, hu, rfl⟩⟩))))⟩
          · exact ⟨_, frameEndCheck_ok.2 (.inr (.inr (.inr (.inr
              ⟨hovf, hbusy, hbits, hunits, v, hv, .inr ⟨hopen, rfl⟩⟩))))⟩
      · exact ⟨_, frameEndCheck_ok.2 (.inr (.inr (.inl ⟨hovf, hbusy, hbits, rfl⟩)))⟩

/-- A node that holds the bus for its frame drives DATA and BUSY, and can give them back (R58 items 2 and 3, R197). -/
theorem endTransmit_total {p : Params} {s : State} (h : BlockInv p s) (howns : ownsFrame s) :
    ∃ t, endTransmit p s = .ok t := by
  have hbusy := h.busy_iff_owns.2 howns
  exact ⟨_, endTransmit_ok.2 ⟨h.data_iff_busy.2 hbusy, hbusy, rfl⟩⟩

theorem masterCase_total {p : Params} {s : State} (h : BlockInv p s) (hm : s.master = true) :
    ∃ t, masterCase p s = .ok t := by
  unfold masterCase
  split
  · exact endTransmit_total h (.inr hm)
  · split <;> exact ⟨_, rfl⟩

theorem respondingCase_total {p : Params} {s : State} (h : BlockInv p s) (hs : s.phase = .responding) :
    ∃ t, respondingCase p s = .ok t := by
  unfold respondingCase
  split
  · exact endTransmit_total h (.inl hs)
  · exact ⟨_, rfl⟩

theorem receiveCase_total {p : Params} {s : State} (hp : p.Valid) (h : BlockInv p s) (hm : s.master = false) :
    ∃ t, receiveCase p s = .ok t := by
  obtain ⟨u, hu, hinv⟩ := processUnits_total hp h hm (s.flen.toNat - s.fproc.toNat)
  obtain ⟨t, ht⟩ := frameEndCheck_total (hinv.fproc_le.trans hinv.flen_le)
  cases hr : receivingPhase u with
  | true => exact ⟨t, receiveCase_ok.2 ⟨u, hu, .inl ⟨hr, ht⟩⟩⟩
  | false => exact ⟨u, receiveCase_ok.2 ⟨u, hu, .inr ⟨hr, rfl⟩⟩⟩

/-- ASM always answers a next state, in each of its four cases (R180). -/
theorem asm_total {p : Params} {s : State} (hp : p.Valid) (h : BlockInv p s) : ∃ t, asmAt p s = .next t := by
  obtain ⟨t, ht⟩ : ∃ t, asmBody p s = .ok t := by
    unfold asmBody
    split
    · exact ⟨_, rfl⟩
    split
    · next hm => exact masterCase_total h hm
    split
    · next hs => exact respondingCase_total h hs
    · next hm _ => exact receiveCase_total hp h (by simpa using hm)
  exact ⟨t, finish_next.2 ht⟩

/-! ### SAMPLE -/

/-- SAMPLE answers a next state where it is enabled: a node that transmits drives DATA (R58 item 2, R161). -/
theorem sample_total {p : Params} {s : State} (h : BlockInv p s) (hien : s.ien = true) (hipend : s.ipend = true) :
    ∃ t, sampleAt p s = .next t := by
  cases htdir : s.tdir with
  | receiving =>
    obtain ⟨t, ht⟩ := receiveBit_total p (takeInterrupt s)
    exact ⟨t, sampleAt_next.2 ⟨hien, hipend, .inl ⟨htdir, ht⟩⟩⟩
  | transmitting =>
    obtain ⟨t, ht⟩ := transmitBit_total (p := p) (s := takeInterrupt s) (h.tdir_iff_data.1 htdir) h.txlen_le
    exact ⟨t, sampleAt_next.2 ⟨hien, hipend, .inr ⟨htdir, ht⟩⟩⟩

/-! ### The host's commands -/

theorem wrline_total {p : Params} {l : Line} {v : Level} {s : State} (h : s.dir.get l = .output) :
    ∃ t, wrlineAt p l v s = .next t := by
  unfold wrlineAt
  rw [writeLine_output h]
  exact ⟨_, rfl⟩

theorem claim_total {p : Params} (hp : p.Valid) (s : State) : ∃ t, claimAt p s = .next t := by
  unfold claimAt
  rw [claimBus_eq hp.txMax_pos]
  split <;> exact ⟨_, rfl⟩

/-- A unit is staged only inside the capacity (R237). -/
theorem txpush_total (p : Params) (imm : Byte) (s : State) : ∃ t, txpushAt p imm s = .next t := by
  unfold txpushAt
  split
  · next hc =>
    rw [memWrite_ok.2 ⟨hc.2, rfl⟩]
    exact ⟨_, rfl⟩
  · exact ⟨_, rfl⟩

theorem txenq_total (p : Params) (s : State) : ∃ t, txenqAt p s = .next t := by
  unfold txenqAt
  split <;> exact ⟨_, rfl⟩

theorem txclr_total (p : Params) (s : State) : ∃ t, txclrAt p s = .next t := by
  unfold txclrAt
  split <;> exact ⟨_, rfl⟩

/-- A delivered frame is read only below its length, which is within the capacity (R58 item 1, R240). -/
theorem rxrd_total {p : Params} {imm : Byte} {s : State} (h : s.dlen.toNat ≤ p.frameMax) :
    ∃ t, rxrdAt p imm s = .next t := by
  unfold rxrdAt
  split
  · next hc =>
    rw [(memRead_ok (b := .dbuf)).2 ⟨hc.2.trans_le h, rfl⟩]
    exact ⟨_, rfl⟩
  · exact ⟨_, rfl⟩

/-- Settles O51, instruction by instruction. -/
theorem engineNeverFaults : Obligations.EngineNeverFaults := by
  intro p i s hp h hi hsample hwrline
  cases i with
  | nop | setdir _ _ | rdline _ | ien | idis | iclr | init | snoop _ | rxlen | rxack | rdsr _ | ext _ _ | reset =>
    exact ⟨_, rfl⟩
  | wrline l v =>
    obtain rfl : l = .clock := by simpa [drivesBusLine] using hi
    exact wrline_total (hwrline v rfl)
  | claim => exact claim_total hp s
  | txpush imm => exact txpush_total p imm s
  | txenq => exact txenq_total p s
  | txclr => exact txclr_total p s
  | rxrd _ => exact rxrd_total h.dlen_le
  | sample => exact sample_total h (hsample rfl).1 (hsample rfl).2
  | asm => exact asm_total hp h

end Sys2Proof.Machine
end

section
/-! PROOFS. The delivered frame is the host's, and the enqueued frame the block's (R67, R232, R238). -/

namespace Sys2Proof.Machine

/-! ### What SAMPLE leaves alone -/

/-- SAMPLE writes the sampler's fields, the line DATA and what the edge detector keeps (R160). -/
theorem sample_frame {p : Params} {s t : State} (h : sampleAt p s = .next t) :
    t = { s with
      out := t.out, ipend := t.ipend, elost := t.elost, clkPrev := t.clkPrev, bitcnt := t.bitcnt, shift := t.shift,
      fbuf := t.fbuf, flen := t.flen, fovf := t.fovf, txidx := t.txidx, txbyte := t.txbyte, txvalid := t.txvalid,
      txdone := t.txdone } := by
  obtain ⟨-, -, ⟨-, h⟩ | ⟨-, h⟩⟩ := sampleAt_next.1 h
  · obtain ⟨-, rfl⟩ | ⟨-, -, rfl⟩ | ⟨-, -, rfl⟩ := receiveBit_ok.1 h <;> rfl
  · obtain ⟨u, hu, h⟩ := transmitBit_ok.1 h
    obtain ⟨-, hu⟩ := writeLine_ok.1 hu
    rw [edgeDetect_eq] at hu
    subst hu
    obtain ⟨-, -, rfl⟩ | ⟨-, -, h⟩ | ⟨-, rfl⟩ := h
    · rfl
    · obtain ⟨-, -, rfl⟩ | ⟨-, rfl⟩ := transmitComplete_ok.1 h <;> rfl
    · rfl

/-! ### The delivered frame -/

/-- `t` still holds the frame that was delivered in `s` (R67). -/
structure FrameHeld (s t : State) : Prop where
  dbuf : t.dbuf = s.dbuf
  dlen : t.dlen = s.dlen
  dobs : t.dobs = s.dobs
  frdy : t.frdy = true

/-- A delivery while FRDY = 1 drops the new frame (R190), and nothing else in ASM touches the delivered one. -/
theorem asmKeeps_frameHeld (p : Params) (s : State) : AsmKeeps p (FrameHeld s) where
  busySeen _ _ h := { h with }
  frameStarts _ _ h := { h with }
  payloadOpens _ _ h := { h with }
  transmitEnds u t h ht := by
    obtain ⟨-, -, rfl⟩ := endTransmit_ok.1 ht
    rw [edgeDetect_eq]
    exact { h with }
  unitExamined u _ _ h := by rw [examined_eq]; exact { h with }
  frameDelivered u t h ht := by
    rw [deliver_untaken h.frdy] at ht
    cases ht
    exact { h with }
  diagSet _ _ _ h := { h with }
  frameEnds _ _ _ h := { h with }
  responseBegins u t _ _ _ h ht := by
    rw [beginResponse_eq (txMax_pos_of_beginResponse ht), edgeDetect_eq] at ht
    cases ht
    exact { h with }

theorem frameHeld_execAt {p : Params} {i : Instr} {s t : State} (hf : s.frdy = true) (hack : i ≠ .rxack)
    (hinit : i ≠ .init) (hreset : i ≠ .reset) (h : execAt p i s = .next t) : FrameHeld s t := by
  have held : FrameHeld s s := ⟨rfl, rfl, rfl, hf⟩
  have hr := execAt_result h
  cases i with
  | nop | rdline _ | rxlen | rxrd _ | rdsr _ => obtain ⟨r, rfl⟩ := hr; exact { held with }
  | ien | idis | iclr | snoop _ => obtain rfl := hr; exact { held with }
  | setdir _ _ => obtain rfl := hr; rw [setDirection, edgeDetect_eq]; exact { held with }
  | ext _ _ => obtain rfl := hr; rw [externalChange, edgeDetect_eq]; exact { held with }
  | wrline _ _ =>
    obtain ⟨u, hu, rfl⟩ := hr
    obtain ⟨-, rfl⟩ := writeLine_ok.1 hu
    rw [edgeDetect_eq]
    exact { held with }
  | rxack => exact absurd rfl hack
  | init => exact absurd rfl hinit
  | reset => exact absurd rfl hreset
  | claim =>
    obtain ⟨-, u, hu, rfl⟩ | rfl := hr
    · rw [claimBus_eq (txMax_pos_of_claimBus hu), edgeDetect_eq] at hu
      cases hu
      exact { held with }
    · exact { held with }
  | txpush _ => obtain ⟨-, -, rfl⟩ | rfl := hr <;> exact { held with }
  | txenq => obtain ⟨-, rfl⟩ | rfl := hr <;> exact { held with }
  | txclr => obtain ⟨-, rfl⟩ | rfl := hr <;> exact { held with }
  | sample => rw [sample_frame hr]; exact { held with }
  | asm => exact (asmKeeps_frameHeld p s).step held hr

/-- Settles O55, instruction by instruction. -/
theorem deliveredFrameIsKept : Obligations.DeliveredFrameIsKept := by
  intro p i s t hf hack hinit hreset h
  obtain ⟨hdbuf, hdlen, hdobs, hfrdy⟩ := frameHeld_execAt hf hack hinit hreset h
  exact ⟨hdbuf, hdlen, hdobs, hfrdy⟩

/-! ### The enqueued frame -/

/-- The response queue of `t` is that of `s` (R33, R67). -/
structure QueueKept (s t : State) : Prop where
  txbuf : t.txbuf = s.txbuf
  txlen : t.txlen = s.txlen
  txq : t.txq = s.txq

theorem queueKept_deliver {p : Params} {s u t : State} (hu : QueueKept s u) (h : deliver p u = .ok t) :
    QueueKept s t := by
  obtain ⟨-, rfl⟩ | ⟨-, -, m, rfl, -⟩ := deliver_ok h <;> exact { hu with }

/-- A response is sent from the queue, which stays as it is (R193, R194). -/
theorem queueKept_reply {p : Params} {s u t : State} (hu : QueueKept s u) (h : reply p u = .ok t) :
    QueueKept s t := by
  obtain ⟨v, hv, ⟨-, h⟩ | ⟨-, rfl⟩⟩ := reply_ok.1 h
  · have hdelivered := queueKept_deliver hu hv
    rw [beginResponse_eq (txMax_pos_of_beginResponse h), edgeDetect_eq] at h
    cases h
    exact { hdelivered with }
  · exact { queueKept_deliver hu hv with }

theorem queueKept_processUnit {p : Params} {s u t : State} (hu : QueueKept s u) (h : processUnit p u = .ok t) :
    QueueKept s t := by
  obtain rfl | h := processUnit_cases h
  · exact { hu with }
  have hexamined : QueueKept s (examined p u) := by rw [examined_eq]; exact { hu with }
  obtain ⟨-, rfl⟩ | ⟨-, v, hv, rfl⟩ | ⟨-, rfl⟩ | ⟨-, h⟩ := judgeAndAct_ok.1 h
  · exact hexamined
  · exact { queueKept_deliver hexamined hv with }
  · exact { hexamined with }
  · exact queueKept_reply hexamined h

theorem queueKept_frameEndCheck {p : Params} {s u t : State} (hu : QueueKept s u)
    (h : frameEndCheck p u = .ok t) : QueueKept s t := by
  have hseen : QueueKept s { u with busyLast := .high } := { hu with }
  obtain ⟨-, rfl⟩ | ⟨-, -, rfl⟩ | ⟨-, -, -, rfl⟩ | ⟨-, -, -, -, rfl⟩ | ⟨-, -, -, -, v, -, h⟩ := frameEndCheck_ok.1 h
  · exact { hu with }
  · exact hu
  · exact { hu with }
  · exact { hu with }
  · obtain ⟨-, w, hw, rfl⟩ | ⟨-, rfl⟩ := h
    · exact { queueKept_deliver hseen hw with }
    · exact { hu with }

/-- The end of a transmission empties the queue but for the contents of TXBUF (R197). -/
theorem endTransmit_queue {p : Params} {s t : State} (h : endTransmit p s = .ok t) :
    t.txbuf = s.txbuf ∧ t.txq = false := by
  obtain ⟨-, -, rfl⟩ := endTransmit_ok.1 h
  simp

/-- ASM leaves the response queue as it is, or ends a transmission whose last bit is out (R180, R197). -/
theorem asm_queue {p : Params} {s t : State} (h : asmAt p s = .next t) :
    QueueKept s t ∨ (s.txdone = true ∧ t.txbuf = s.txbuf ∧ t.txq = false) := by
  have same : QueueKept s s := ⟨rfl, rfl, rfl⟩
  rcases asmAt_next.1 h with ⟨-, rfl⟩ | ⟨-, -, h⟩ | ⟨-, -, h⟩ | ⟨-, -, h⟩
  · -- the idle case
    obtain ⟨-, h⟩ | ⟨-, -, h⟩ | ⟨-, -, h⟩ := idleCase_eq s <;> rw [h] <;> exact .inl { same with }
  · -- the master case
    unfold masterCase at h
    split at h
    · next hdone => exact .inr ⟨hdone, endTransmit_queue h⟩
    · split at h <;> cases h <;> exact .inl { same with }
  · -- the responding case
    unfold respondingCase at h
    split at h
    · next hdone => exact .inr ⟨hdone, endTransmit_queue h⟩
    · cases h; exact .inl same
  · -- the receiving case
    obtain ⟨u, hu, h⟩ := receiveCase_ok.1 h
    have loop : QueueKept s u :=
      processUnits_keeps (fun _ _ _ _ hs h => queueKept_processUnit hs h) same hu
    obtain ⟨-, h⟩ | ⟨-, rfl⟩ := h
    · exact .inl (queueKept_frameEndCheck loop h)
    · exact .inl loop

/-- With a frame enqueued, a step leaves the queue as it is, or empties it but for the contents of TXBUF: TXCLR, and
ASM where the frame has been sent. -/
theorem queue_execAt {p : Params} {i : Instr} {s t : State} (hq : s.txq = true) (hinit : i ≠ .init)
    (hreset : i ≠ .reset) (h : execAt p i s = .next t) :
    QueueKept s t ∨
      ((i = .txclr ∨ (i = .asm ∧ s.txdone = true)) ∧ t.txbuf = s.txbuf ∧ t.txq = false) := by
  have same : QueueKept s s := ⟨rfl, rfl, rfl⟩
  have hr := execAt_result h
  cases i with
  | nop | rdline _ | rxlen | rxrd _ | rdsr _ => obtain ⟨r, rfl⟩ := hr; exact .inl { same with }
  | ien | idis | iclr | snoop _ | rxack => obtain rfl := hr; exact .inl { same with }
  | setdir _ _ => obtain rfl := hr; rw [setDirection, edgeDetect_eq]; exact .inl { same with }
  | ext _ _ => obtain rfl := hr; rw [externalChange, edgeDetect_eq]; exact .inl { same with }
  | wrline _ _ =>
    obtain ⟨u, hu, rfl⟩ := hr
    obtain ⟨-, rfl⟩ := writeLine_ok.1 hu
    rw [edgeDetect_eq]
    exact .inl { same with }
  | init => exact absurd rfl hinit
  | reset => exact absurd rfl hreset
  | claim =>
    obtain ⟨-, u, hu, rfl⟩ | rfl := hr
    · rw [claimBus_eq (txMax_pos_of_claimBus hu), edgeDetect_eq] at hu
      cases hu
      exact .inl { same with }
    · exact .inl { same with }
  | txpush _ =>
    obtain ⟨hfree, -⟩ | rfl := hr
    · simp [hq] at hfree
    · exact .inl { same with }
  | txenq =>
    obtain ⟨-, rfl⟩ | rfl := hr
    · exact .inl { same with txq := hq.symm }
    · exact .inl { same with }
  | txclr =>
    obtain ⟨-, rfl⟩ | rfl := hr
    · exact .inr ⟨.inl rfl, rfl, rfl⟩
    · exact .inl { same with }
  | sample => rw [sample_frame hr]; exact .inl { same with }
  | asm => exact (asm_queue hr).imp_right fun ⟨hdone, hend⟩ => ⟨.inr ⟨rfl, hdone⟩, hend⟩

/-- Settles O56: where the queue is not as it was it has been emptied. -/
theorem enqueuedFrameIsKept : Obligations.EnqueuedFrameIsKept := by
  intro p i s t hq hinit hreset h
  obtain ⟨htxbuf, htxlen, htxq⟩ | ⟨hi, htxbuf, htxq⟩ := queue_execAt hq hinit hreset h
  · exact ⟨htxbuf, fun _ => htxlen, fun hn => by simp [htxq, hq] at hn⟩
  · exact ⟨htxbuf, fun hn => by simp [htxq] at hn, fun _ => hi⟩

end Sys2Proof.Machine
end

section
/-! PROOFS. A run with a SAMPLE between every two active edges with IEN = 1 never sets ELOST (R75, R268). -/

namespace Sys2Proof.Machine

/-! ### One step -/

/-- The step from `s` to `t` is an active edge of CLOCK that leaves IEN = 1 (R75): an edge that asks for a SAMPLE. -/
def servedEdge (p : Params) (s t : State) : Prop :=
  activeEdge p.clkEdge (wire s .clock) (wire t .clock) = true ∧ t.ien = true

/-- What a step from `s` to `t` can do to ELOST and to the interrupt: only an edge with IEN = 1 enables SAMPLE, and only
one that finds SAMPLE enabled sets ELOST (R141, R268). -/
structure EdgeAccounted (p : Params) (s t : State) : Prop where
  lost : t.elost = true → s.elost = true ∨ (servedEdge p s t ∧ interruptEnabled s = true)
  pending : interruptEnabled t = true → interruptEnabled s = true ∨ servedEdge p s t

/-- A step that sets neither ELOST nor the interrupt. -/
structure EdgeQuiet (s t : State) : Prop where
  seen : clockSeen t
  lost : t.elost = true → s.elost = true
  pending : interruptEnabled t = true → interruptEnabled s = true

theorem EdgeQuiet.accounted {p : Params} {s t : State} (h : EdgeQuiet s t) : EdgeAccounted p s t :=
  ⟨fun ht => .inl (h.lost ht), fun ht => .inl (h.pending ht)⟩

/-- `edge_detect()` after a change of the lines of a state whose CLOCK wire has been seen (R141). -/
theorem edgeAccounted_edgeDetect {p : Params} {s u : State} (hs : clockSeen s) (hprev : u.clkPrev = s.clkPrev)
    (hien : u.ien = s.ien) (hipend : u.ipend = s.ipend) (helost : u.elost = s.elost) :
    EdgeAccounted p s (edgeDetect p u) := by
  have hedge : edgeFound p u = true → u.ien = true → servedEdge p s (edgeDetect p u) := fun hfound hon =>
    ⟨by rw [wire_edgeDetect, ← hs, ← hprev]; exact hfound, by simpa using hon⟩
  constructor
  case lost =>
    intro h
    rw [edgeDetect_eq] at h
    simp only [Bool.or_eq_true, Bool.and_eq_true] at h
    obtain h | ⟨⟨hfound, hpend⟩, hon⟩ := h
    · exact .inl (helost ▸ h)
    · exact .inr ⟨hedge hfound hon, by simp [interruptEnabled, ← hien, ← hipend, hon, hpend]⟩
  case pending =>
    intro h
    rw [edgeDetect_eq] at h
    simp only [interruptEnabled, Bool.or_eq_true, Bool.and_eq_true] at h
    obtain ⟨hon, hpend | hfound⟩ := h
    · exact .inl (by simp [interruptEnabled, ← hien, ← hipend, hon, hpend])
    · exact .inr (hedge hfound hon)

/-- ASM makes no edge, and it sets IEN only where it clears IPEND (R149, R182). -/
theorem asmKeeps_edgeQuiet (p : Params) (s : State) : AsmKeeps p (EdgeQuiet s) where
  busySeen _ _ h := { h with }
  frameStarts u _ h := { h with pending := by simp [interruptEnabled] }
  payloadOpens _ _ h := { h with }
  transmitEnds u t h ht := by
    have hseen := (asmKeeps_clockSeen p).transmitEnds u t h.seen ht
    obtain ⟨-, -, rfl⟩ := endTransmit_ok.1 ht
    rw [edgeDetect_same h.seen] at hseen ⊢
    exact { h with seen := hseen, pending := by simp [interruptEnabled] }
  unitExamined u _ _ h := by rw [examined_eq]; exact { h with }
  frameDelivered u t h ht := by
    obtain ⟨-, rfl⟩ | ⟨-, -, m, rfl, -⟩ := deliver_ok ht <;> exact { h with }
  diagSet _ _ _ h := { h with }
  frameEnds u _ _ h := { h with pending := by simp [interruptEnabled] }
  responseBegins u t _ _ _ h ht := by
    rw [beginResponse_eq (txMax_pos_of_beginResponse ht), edgeDetect_same h.seen] at ht
    cases ht
    exact { h with }

/-- SAMPLE takes the interrupt and makes no edge (R161, R267). -/
theorem sample_served {p : Params} {s t : State} (hs : clockSeen s) (h : sampleAt p s = .next t) :
    t.elost = s.elost ∧ t.ipend = false := by
  obtain ⟨-, -, ⟨-, h⟩ | ⟨-, h⟩⟩ := sampleAt_next.1 h
  · obtain ⟨-, rfl⟩ | ⟨-, -, rfl⟩ | ⟨-, -, rfl⟩ := receiveBit_ok.1 h <;> exact ⟨rfl, rfl⟩
  · obtain ⟨u, hu, h⟩ := transmitBit_ok.1 h
    obtain ⟨hdata, -⟩ := writeLine_ok.1 hu
    rw [writeLine_quiet (by simp) hdata hs] at hu
    cases hu
    obtain ⟨-, -, rfl⟩ | ⟨-, -, h⟩ | ⟨-, rfl⟩ := h
    · exact ⟨rfl, rfl⟩
    · obtain ⟨-, -, rfl⟩ | ⟨-, rfl⟩ := transmitComplete_ok.1 h <;> exact ⟨rfl, rfl⟩
    · exact ⟨rfl, rfl⟩

/-- Every step but IEN accounts for its edge (R141, R268). -/
theorem edgeAccounted_execAt {p : Params} {i : Instr} {s t : State} (hs : clockSeen s) (hi : i ≠ .ien)
    (h : execAt p i s = .next t) : EdgeAccounted p s t := by
  have quiet : EdgeQuiet s s := ⟨hs, id, id⟩
  have hr := execAt_result h
  cases i with
  | nop | rdline _ | rxlen | rxrd _ | rdsr _ =>
    obtain ⟨r, rfl⟩ := hr
    exact EdgeQuiet.accounted { quiet with }
  | snoop _ | rxack => obtain rfl := hr; exact EdgeQuiet.accounted { quiet with }
  | ien => exact absurd rfl hi
  | idis | iclr =>
    obtain rfl := hr
    exact EdgeQuiet.accounted { quiet with pending := by simp [interruptEnabled] }
  | setdir l m =>
    obtain rfl := hr
    have hset : EdgeAccounted p s (setDirection p l m s) := edgeAccounted_edgeDetect hs rfl rfl rfl rfl
    exact { hset with }
  | ext _ _ => obtain rfl := hr; exact edgeAccounted_edgeDetect hs rfl rfl rfl rfl
  | wrline l v =>
    obtain ⟨u, hu, rfl⟩ := hr
    obtain ⟨-, rfl⟩ := writeLine_ok.1 hu
    have hwrite : EdgeAccounted p s (edgeDetect p { s with out := s.out.set l v }) :=
      edgeAccounted_edgeDetect hs rfl rfl rfl rfl
    exact { hwrite with }
  | init => obtain rfl := hr; exact ⟨(nomatch ·), (nomatch ·)⟩
  | reset => obtain rfl := hr; exact ⟨(nomatch ·), (nomatch ·)⟩
  | claim =>
    obtain ⟨-, u, hu, rfl⟩ | rfl := hr
    · rw [claimBus_eq (txMax_pos_of_claimBus hu), edgeDetect_same hs] at hu
      cases hu
      exact EdgeQuiet.accounted { quiet with pending := by simp [interruptEnabled] }
    · exact EdgeQuiet.accounted { quiet with }
  | txpush _ => obtain ⟨-, -, rfl⟩ | rfl := hr <;> exact EdgeQuiet.accounted { quiet with }
  | txenq => obtain ⟨-, rfl⟩ | rfl := hr <;> exact EdgeQuiet.accounted { quiet with }
  | txclr => obtain ⟨-, rfl⟩ | rfl := hr <;> exact EdgeQuiet.accounted { quiet with }
  | sample =>
    obtain ⟨helost, hipend⟩ := sample_served hs hr
    exact EdgeQuiet.accounted ⟨clockSeen_sample hs hr, fun ht => helost ▸ ht, by simp [interruptEnabled, hipend]⟩
  | asm => exact ((asmKeeps_edgeQuiet p s).step quiet hr).accounted

/-! ### The run -/

/-- The invariant along a run that keeps clause (a) of PROMPT: SAMPLE is enabled only by an edge that has come since the
last one (`unserved`), and no edge has been recorded as lost. -/
structure Prompt (unserved : Bool) (s : State) : Prop where
  seen : clockSeen s
  enabled : interruptEnabled s = true → unserved = true
  elost : s.elost = false

/-- One step of a run that keeps clause (a) of PROMPT, and what is left of the run (R75). -/
theorem Prompt.step {unserved : Bool} {e : Event} {es : List Event} (h : Prompt unserved e.before)
    (hi : e.instr ≠ .ien) (hrun : exec e.instr e.before = .next e.after)
    (hserved : promptServed Config.params unserved (e :: es) = true) :
    ∃ u, Prompt u e.after ∧ promptServed Config.params u es = true := by
  rw [exec_eq_execAt] at hrun
  have acc := edgeAccounted_execAt h.seen hi hrun
  have hseen := clockSeen_execAt h.seen hrun
  simp only [promptServed] at hserved
  split at hserved
  · -- an active edge with IEN = 1: the edge before it has been served, so this one is not lost
    simp only [Bool.and_eq_true, Bool.not_eq_true'] at hserved
    obtain ⟨hfree, hserved⟩ := hserved
    refine ⟨true, ⟨hseen, fun _ => rfl, Bool.eq_false_iff.2 fun hl => ?_⟩, hserved⟩
    obtain hl | ⟨-, hen⟩ := acc.lost hl
    · simp [h.elost] at hl
    · simp [h.enabled hen] at hfree
  · next hedge =>
    have hno : ¬servedEdge Config.params e.before e.after := by
      simpa [servedEdge, Event.isEdge] using hedge
    have helost : e.after.elost = false := Bool.eq_false_iff.2 fun hl => by
      obtain hl | ⟨hs, -⟩ := acc.lost hl
      · simp [h.elost] at hl
      · exact hno hs
    split at hserved
    · next hsample =>
      -- a SAMPLE: nothing is pending after it
      rw [hsample] at hrun
      have hipend := (sample_served h.seen hrun).2
      exact ⟨false, ⟨hseen, by simp [interruptEnabled, hipend], helost⟩, hserved⟩
    · -- any other step
      exact ⟨unserved, ⟨hseen, fun hen => h.enabled ((acc.pending hen).resolve_right hno), helost⟩, hserved⟩

/-- ELOST stays clear along a run that keeps clause (a) of PROMPT, by induction over its steps. -/
theorem Prompt.run {es : List Event} {unserved : Bool} {s : State} (h : Prompt unserved s) (hrun : isRun s es)
    (hi : ∀ e ∈ es, e.instr ≠ .ien) (hserved : promptServed Config.params unserved es = true) :
    ∀ e ∈ es, e.after.elost = false := by
  induction es generalizing s unserved with
  | nil => simp
  | cons e es ih =>
    obtain ⟨rfl, hexec, hrest⟩ := hrun
    rw [List.forall_mem_cons] at hi ⊢
    obtain ⟨u, hafter, hserved⟩ := h.step hi.1 hexec hserved
    exact ⟨hafter.elost, ih hafter hrest hi.2 hserved⟩

/-- Settles O59: the run starts with nothing pending or with the interrupt off, so with no edge unserved. -/
theorem promptRunNeverSetsElost : Obligations.PromptRunNeverSetsElost := by
  intro es s hrun hseen hstart hi hserved helost
  have hoff : interruptEnabled s = false := by
    obtain h | h := hstart <;> simp [interruptEnabled, h]
  exact Prompt.run ⟨hseen, fun hen => by simp [hoff] at hen, helost⟩ hrun hi hserved

end Sys2Proof.Machine
end

section
/-! PROOFS. The decoder and the encoder agree (R92, R94, R96 to R98): the decoder reads the opcode map row by row, no
two rows overlap, and each row keeps every bit of its words. -/

namespace Sys2Proof

/-! ### The decoder as a table -/

/-- How a row of R94 makes an instruction of a word that matches it (R92). -/
inductive Reading where
  | plain (f : Word → Instr)
  | line (f : Line → Word → Instr)
  | unit (f : Byte → Instr)

/-- The instruction, or the reason why its operand is reserved (R96). -/
def Reading.read (bpu : Nat) (w : Word) : Reading → Except Reserved Instr
  | .plain f => .ok (f w)
  | .line f => withLine w fun l => f l w
  | .unit f => if (immField w).toNat < 2 ^ bpu then .ok (f (immField w)) else .error .unitTooWide

/-- A row of R94 with its reading. -/
structure Entry where
  mask : Word
  pattern : Word
  reading : Reading

/-- The entry without its reading: the side conditions of a row are those of its format. -/
def Entry.row (e : Entry) : Row :=
  match e.reading with
  | .plain _ => ⟨e.mask, e.pattern, false, false⟩
  | .line _ => ⟨e.mask, e.pattern, true, false⟩
  | .unit _ => ⟨e.mask, e.pattern, false, true⟩

/-- The opcode map with the readings, in the order of R94. -/
def entries : List Entry :=
  [ ⟨0xFFFF#16, 0x0000#16, .plain fun _ => .nop⟩,
    ⟨0xFCFE#16, 0x1000#16, .line fun l w => .setdir l (modeOf (valueField w))⟩,
    ⟨0xFCFE#16, 0x2000#16, .line fun l w => .wrline l (levelOf (valueField w))⟩,
    ⟨0xFCFF#16, 0x3000#16, .line fun l _ => .rdline l⟩,
    ⟨0xFFFF#16, 0x4000#16, .plain fun _ => .ien⟩,
    ⟨0xFFFF#16, 0x4100#16, .plain fun _ => .idis⟩,
    ⟨0xFFFF#16, 0x4200#16, .plain fun _ => .iclr⟩,
    ⟨0xFFFF#16, 0x5000#16, .plain fun _ => .init⟩,
    ⟨0xFFFE#16, 0x5100#16, .plain fun w => .snoop (valueField w)⟩,
    ⟨0xFFFF#16, 0x5200#16, .plain fun _ => .claim⟩,
    ⟨0xFF00#16, 0x6000#16, .unit .txpush⟩,
    ⟨0xFFFF#16, 0x6100#16, .plain fun _ => .txenq⟩,
    ⟨0xFFFF#16, 0x6200#16, .plain fun _ => .txclr⟩,
    ⟨0xFFFF#16, 0x7000#16, .plain fun _ => .rxlen⟩,
    ⟨0xFF00#16, 0x7100#16, .plain fun w => .rxrd (immField w)⟩,
    ⟨0xFFFF#16, 0x7200#16, .plain fun _ => .rxack⟩,
    ⟨0xF0FF#16, 0x8000#16, .plain fun w => .rdsr (numberField w)⟩,
    ⟨0xFCFE#16, 0xE000#16, .line fun l w => .ext l (levelOf (valueField w))⟩,
    ⟨0xFFFF#16, 0xF000#16, .plain fun _ => .sample⟩,
    ⟨0xFFFF#16, 0xF100#16, .plain fun _ => .asm⟩,
    ⟨0xFFFF#16, 0xF200#16, .plain fun _ => .reset⟩ ]

/-- The table is the opcode map of the model (R94). -/
theorem entries_map_row : entries.map Entry.row = opcodeRows := rfl

/-- Reading a word by the first entry whose mask and pattern it matches. -/
def readFirst (bpu : Nat) (w : Word) : List Entry → Except Reserved Instr
  | [] => .error (reservedReason w)
  | e :: es => if w &&& e.mask = e.pattern then e.reading.read bpu w else readFirst bpu w es

/-- The full mask keeps every bit of a word. -/
theorem and_fullMask (w : Word) : w &&& 0xFFFF#16 = w :=
  BitVec.and_allOnes

/-- The decoder tests the rows of the table in their order. -/
theorem decode_eq_readFirst (bpu : Nat) (w : Word) : decode bpu w = readFirst bpu w entries := by
  simp only [entries, readFirst, and_fullMask, Reading.read]
  rfl

/-! ### No word matches two rows -/

/-- Two rows ask for different values of a bit that both masks look at. -/
def Row.Conflict (r r' : Row) : Prop := r.pattern &&& r'.mask ≠ r'.pattern &&& r.mask

/-- Any two rows of R94 conflict. -/
theorem opcodeRows_conflict : opcodeRows.Pairwise Row.Conflict := by
  unfold Row.Conflict
  decide

/-- No word matches two rows that conflict. -/
theorem Row.Conflict.not_both {r r' : Row} (h : r.Conflict r') {w : Word} (hr : w &&& r.mask = r.pattern)
    (hr' : w &&& r'.mask = r'.pattern) : False := by
  apply h
  rw [← hr, ← hr', BitVec.and_assoc, BitVec.and_assoc, BitVec.and_comm r.mask]

/-- A word selects a row where it matches mask and pattern, its line is not 3, and its unit has BPU bits (R94, R96). -/
theorem Row.selects_iff {r : Row} {bpu : Nat} {w : Word} :
    r.selects bpu w = true ↔ w &&& r.mask = r.pattern ∧ (r.hasLine = true → w.extractLsb' 8 2 ≠ 3#2) ∧
      (r.hasUnit = true → (immField w).toNat < 2 ^ bpu) := by
  simp only [Row.selects, Bool.and_eq_true, decide_eq_true_eq, Bool.or_eq_true, Bool.not_eq_true', and_assoc]
  cases r.hasLine <;> cases r.hasUnit <;> simp

/-- An entry and its row look at the same bits. -/
@[simp] theorem Entry.row_mask (e : Entry) : e.row.mask = e.mask := by
  unfold Entry.row; cases e.reading <;> rfl

/-- An entry and its row ask for the same bits. -/
@[simp] theorem Entry.row_pattern (e : Entry) : e.row.pattern = e.pattern := by
  unfold Entry.row; cases e.reading <;> rfl

/-! ### Decoding by any row that the word matches -/

/-- Where the entries conflict, the first entry that a word matches is any entry that it matches. -/
theorem readFirst_of_mem {bpu : Nat} {w : Word} {e : Entry} {es : List Entry}
    (hc : es.Pairwise fun e e' => e.row.Conflict e'.row) (he : e ∈ es) (hm : w &&& e.mask = e.pattern) :
    readFirst bpu w es = e.reading.read bpu w := by
  induction es with
  | nil => cases he
  | cons e' es ih =>
    obtain ⟨hhead, htail⟩ := List.pairwise_cons.1 hc
    obtain rfl | he := List.mem_cons.1 he
    · simp [readFirst, hm]
    · have hno : w &&& e'.mask ≠ e'.pattern := fun hm' =>
        (hhead e he).not_both (w := w) (by simpa using hm') (by simpa using hm)
      simp [readFirst, hno, ih htail he]

/-- Only an entry that the word matches reads an instruction. -/
theorem exists_mem_of_readFirst {bpu : Nat} {w : Word} {i : Instr} {es : List Entry}
    (h : readFirst bpu w es = .ok i) :
    ∃ e ∈ es, w &&& e.mask = e.pattern ∧ e.reading.read bpu w = .ok i := by
  induction es with
  | nil => cases h
  | cons e es ih =>
    unfold readFirst at h
    split at h
    · next hm => exact ⟨e, List.mem_cons_self, hm, h⟩
    · obtain ⟨e', he', hread⟩ := ih h
      exact ⟨e', List.mem_cons_of_mem _ he', hread⟩

/-- A word decodes to what any row that it matches reads in it (R97): the order of the rows does not matter. -/
theorem decode_ok_iff {bpu : Nat} {w : Word} {i : Instr} :
    decode bpu w = .ok i ↔ ∃ e ∈ entries, w &&& e.mask = e.pattern ∧ e.reading.read bpu w = .ok i := by
  rw [decode_eq_readFirst]
  refine ⟨exists_mem_of_readFirst, ?_⟩
  rintro ⟨e, he, hm, hread⟩
  have hc : entries.Pairwise fun e e' => e.row.Conflict e'.row :=
    List.pairwise_map.1 (entries_map_row ▸ opcodeRows_conflict)
  rw [readFirst_of_mem hc he hm, hread]

/-! ### What each format reads -/

/-- Where the format restricts no operand, every word reads. -/
theorem read_plain {bpu : Nat} {w : Word} {f : Word → Instr} {i : Instr} :
    (Reading.plain f).read bpu w = .ok i ↔ i = f w := by
  simp [Reading.read, eq_comm]

/-- A word with a line reads where the line is not 3. -/
theorem read_line {bpu : Nat} {w : Word} {f : Line → Word → Instr} {i : Instr} :
    (Reading.line f).read bpu w = .ok i ↔ ∃ l, lineField w = some l ∧ i = f l w := by
  simp only [Reading.read, withLine]
  cases lineField w <;> simp [eq_comm]

/-- A word with a unit reads where the unit has BPU bits. -/
theorem read_unit {bpu : Nat} {w : Word} {f : Byte → Instr} {i : Instr} :
    (Reading.unit f).read bpu w = .ok i ↔ (immField w).toNat < 2 ^ bpu ∧ i = f (immField w) := by
  simp only [Reading.read]
  split <;> simp_all [eq_comm]

/-- A word has a line where its line number is not 3 (R96). -/
theorem exists_lineField {w : Word} : (∃ l, lineField w = some l) ↔ w.extractLsb' 8 2 ≠ 3#2 := by
  unfold lineField
  rw [← Option.isSome_iff_exists]
  generalize w.extractLsb' 8 2 = n
  revert n
  decide

/-- An entry reads an instruction in a word exactly where the word selects its row. -/
theorem Entry.row_selects_iff (e : Entry) (bpu : Nat) (w : Word) :
    e.row.selects bpu w = true ↔ w &&& e.mask = e.pattern ∧ ∃ i, e.reading.read bpu w = .ok i := by
  rw [Row.selects_iff]
  obtain ⟨m, q, reading⟩ := e
  cases reading with
  | plain f => simp [Entry.row, read_plain]
  | line f =>
    have hline : (∃ i l, lineField w = some l ∧ i = f l w) ↔ ∃ l, lineField w = some l := by
      rw [exists_comm]; simp
    simp [Entry.row, read_line, hline, exists_lineField]
  | unit f => simp [Entry.row, read_unit]

/-! ### A word is the sum of its fields -/

/-- Two fields that share no bit add up to the field of both. -/
theorem and_add_and {w m n : Word} (h : m &&& n = 0#16) : (w &&& m) + (w &&& n) = w &&& (m ||| n) := by
  have hdisj : (w &&& m) &&& (w &&& n) = 0#16 := by
    calc (w &&& m) &&& (w &&& n) = w &&& w &&& (m &&& n) := by ac_rfl
      _ = 0#16 := by simp [h]
  rw [BitVec.add_eq_or_of_and_eq_zero _ _ hdisj, BitVec.and_or_distrib_left]

/-- The whole word is the sum of what a mask keeps and what its complement keeps. -/
theorem add_of_and_eq {w m n q : Word} (hm : w &&& m = q) (hdisj : m &&& n = 0#16) (hfull : m ||| n = 0xFFFF#16) :
    q + (w &&& n) = w := by
  rw [← hm, and_add_and hdisj, hfull, and_fullMask]

/-- A field put back in its place is the word under the mask of the field (R91). -/
theorem setWidth_extractLsb'_shiftLeft (w : Word) (k n : Nat) :
    (w.extractLsb' k n).setWidth 16 <<< k = w &&& ((BitVec.allOnes n).setWidth 16 <<< k) := by
  ext i hi
  by_cases hk : i < k
  · simp [hk]
  · simp [hk, Nat.add_sub_cancel' (Nat.le_of_not_lt hk), BitVec.getLsbD_eq_getElem hi, Bool.and_comm]

/-- The line number stands in W[9:8] (R91). -/
theorem lineBits_of_lineField {w : Word} {l : Line} (h : lineField w = some l) : lineBits l = w &&& 0x0300#16 := by
  have hw : _ = w &&& 0x0300#16 := setWidth_extractLsb'_shiftLeft w 8 2
  rw [← hw]
  unfold lineField at h
  generalize w.extractLsb' 8 2 = n at h
  revert n
  cases l <;> decide

/-- A level stands in W[0] (R92). -/
theorem levelBits_valueField (w : Word) : levelBits (levelOf (valueField w)) = w &&& 0x0001#16 := by
  rw [BitVec.and_one_eq_setWidth_ofBool_getLsbD]
  unfold valueField
  cases w.getLsbD 0 <;> rfl

/-- A mode stands in W[0] (R92). -/
theorem modeBits_valueField (w : Word) : modeBits (modeOf (valueField w)) = w &&& 0x0001#16 := by
  rw [BitVec.and_one_eq_setWidth_ofBool_getLsbD]
  unfold valueField
  cases w.getLsbD 0 <;> rfl

/-- The switch of SNOOP stands in W[0] (R92). -/
theorem encode_snoop_valueField (w : Word) : encode (.snoop (valueField w)) = 0x5100#16 + (w &&& 0x0001#16) := by
  rw [BitVec.and_one_eq_setWidth_ofBool_getLsbD]
  unfold valueField
  cases w.getLsbD 0 <;> rfl

/-- The immediate stands in W[7:0] (R91). -/
theorem setWidth_immField (w : Word) : (immField w).setWidth 16 = w &&& 0x00FF#16 := by
  have h := setWidth_extractLsb'_shiftLeft w 0 8
  rwa [BitVec.shiftLeft_zero] at h

/-- The register number stands in W[11:8] (R91). -/
theorem shift_numberField (w : Word) : (numberField w).setWidth 16 <<< 8 = w &&& 0x0F00#16 :=
  setWidth_extractLsb'_shiftLeft w 8 4

/-! ### No row drops a bit -/

/-- The encoder gives back every word that an entry reads, and what the entry reads is well-formed. -/
def Entry.Faithful (e : Entry) : Prop :=
  ∀ (bpu : Nat) (w : Word) (i : Instr), w &&& e.mask = e.pattern → e.reading.read bpu w = .ok i →
    encode i = w ∧ i.fits bpu = true

/-- A row of one word is faithful. -/
theorem faithful_exact {i : Instr} (hf : ∀ bpu, i.fits bpu = true) :
    Entry.Faithful ⟨0xFFFF#16, encode i, .plain fun _ => i⟩ := by
  intro bpu w j hm hread
  obtain rfl := read_plain.1 hread
  exact ⟨hm.symm.trans (and_fullMask w), hf bpu⟩

/-- A row with operands in the bits `n` that its mask leaves is faithful where its instruction encodes them. -/
theorem faithful_plain {m n q : Word} {f : Word → Instr} (hdisj : m &&& n = 0#16) (hfull : m ||| n = 0xFFFF#16)
    (henc : ∀ w, encode (f w) = q + (w &&& n)) (hf : ∀ bpu w, (f w).fits bpu = true) :
    Entry.Faithful ⟨m, q, .plain f⟩ := by
  intro bpu w i hm hread
  obtain rfl := read_plain.1 hread
  exact ⟨(henc w).trans (add_of_and_eq hm hdisj hfull), hf bpu w⟩

/-- The same for a row with a line. -/
theorem faithful_line {m n q : Word} {f : Line → Word → Instr} (hdisj : m &&& n = 0#16)
    (hfull : m ||| n = 0xFFFF#16) (henc : ∀ w l, lineField w = some l → encode (f l w) = q + (w &&& n))
    (hf : ∀ bpu l w, (f l w).fits bpu = true) : Entry.Faithful ⟨m, q, .line f⟩ := by
  intro bpu w i hm hread
  obtain ⟨l, hl, rfl⟩ := read_line.1 hread
  exact ⟨(henc w l hl).trans (add_of_and_eq hm hdisj hfull), hf bpu l w⟩

/-- The same for a row with a line and a value in W[0], the format LV (R91). -/
theorem faithful_lineValue {q : Word} {f : Line → Word → Instr}
    (henc : ∀ w l, encode (f l w) = q + lineBits l + (w &&& 0x0001#16))
    (hf : ∀ bpu l w, (f l w).fits bpu = true) : Entry.Faithful ⟨0xFCFE#16, q, .line f⟩ := by
  refine faithful_line (n := 0x0301#16) (by decide) (by decide) (fun w l hl => ?_) hf
  rw [henc, lineBits_of_lineField hl, BitVec.add_assoc, and_add_and (by decide)]
  rfl

/-- The row of TXPUSH is faithful: its unit is in range where it reads one. -/
theorem faithful_txpush : Entry.Faithful ⟨0xFF00#16, 0x6000#16, .unit .txpush⟩ := by
  intro bpu w i hm hread
  obtain ⟨hunit, rfl⟩ := read_unit.1 hread
  refine ⟨?_, decide_eq_true hunit⟩
  rw [encode, setWidth_immField, add_of_and_eq hm (by decide) (by decide)]

/-- Every row of R94 is faithful. -/
theorem entries_faithful : ∀ e ∈ entries, e.Faithful := by
  simp only [entries, List.forall_mem_cons]
  refine ⟨faithful_exact (i := .nop) fun _ => rfl, ?setdir, ?wrline, ?rdline, faithful_exact (i := .ien) fun _ => rfl,
    faithful_exact (i := .idis) fun _ => rfl, faithful_exact (i := .iclr) fun _ => rfl,
    faithful_exact (i := .init) fun _ => rfl, ?snoop, faithful_exact (i := .claim) fun _ => rfl, faithful_txpush,
    faithful_exact (i := .txenq) fun _ => rfl, faithful_exact (i := .txclr) fun _ => rfl,
    faithful_exact (i := .rxlen) fun _ => rfl, ?rxrd, faithful_exact (i := .rxack) fun _ => rfl, ?rdsr, ?ext,
    faithful_exact (i := .sample) fun _ => rfl, faithful_exact (i := .asm) fun _ => rfl,
    faithful_exact (i := .reset) fun _ => rfl, List.forall_mem_nil _⟩
  case setdir => exact faithful_lineValue (fun w _ => by rw [encode, modeBits_valueField]) fun _ _ _ => rfl
  case wrline => exact faithful_lineValue (fun w _ => by rw [encode, levelBits_valueField]) fun _ _ _ => rfl
  case ext => exact faithful_lineValue (fun w _ => by rw [encode, levelBits_valueField]) fun _ _ _ => rfl
  case rdline =>
    exact faithful_line (n := 0x0300#16) (by decide) (by decide)
      (fun _ _ hl => by rw [encode, lineBits_of_lineField hl]) fun _ _ _ => rfl
  case snoop =>
    exact faithful_plain (n := 0x0001#16) (by decide) (by decide) encode_snoop_valueField fun _ _ => rfl
  case rxrd =>
    exact faithful_plain (n := 0x00FF#16) (by decide) (by decide)
      (fun w => by rw [encode, setWidth_immField]) fun _ _ => rfl
  case rdsr =>
    exact faithful_plain (n := 0x0F00#16) (by decide) (by decide)
      (fun w => by rw [encode, shift_numberField]) fun _ _ => rfl

/-! ### Words that the encoder builds from eight or four bits -/

/-- The immediate of the word of RXRD. -/
theorem immField_rxrd (imm : Byte) : immField (0x7100#16 + imm.setWidth 16) = imm := by
  revert imm; decide

/-- The register number of the word of RDSR. -/
theorem numberField_rdsr (n : BitVec 4) : numberField (0x8000#16 + (n.setWidth 16 <<< 8)) = n := by
  revert n; decide

/-- TXPUSH of a unit in range decodes. -/
theorem decode_encode_txpush {bpu : Nat} {imm : Byte} (h : imm.toNat < 2 ^ bpu) :
    decode bpu (encode (.txpush imm)) = .ok (.txpush imm) := by
  refine decode_ok_iff.2 ⟨⟨0xFF00#16, 0x6000#16, .unit .txpush⟩, by simp [entries], Laws.upper_txpush imm, ?_⟩
  simpa [read_unit, encode, Laws.immField_add] using h

/-- RXRD of every index decodes. -/
theorem decode_encode_rxrd (bpu : Nat) (imm : Byte) : decode bpu (encode (.rxrd imm)) = .ok (.rxrd imm) := by
  refine decode_ok_iff.2
    ⟨⟨0xFF00#16, 0x7100#16, .plain fun w => .rxrd (immField w)⟩, by simp [entries], Laws.upper_rxrd imm, ?_⟩
  simp [read_plain, encode, immField_rxrd]

/-- RDSR of every register decodes. -/
theorem decode_encode_rdsr (bpu : Nat) (n : BitVec 4) : decode bpu (encode (.rdsr n)) = .ok (.rdsr n) := by
  refine decode_ok_iff.2
    ⟨⟨0xF0FF#16, 0x8000#16, .plain fun w => .rdsr (numberField w)⟩, by simp [entries], Laws.upper_rdsr n, ?_⟩
  simp [read_plain, encode, numberField_rdsr]

/-! ### The statements -/

/-- Settles O1, constructor by constructor: the words of an instruction with at most a line and one bit as operands are
few and decode by computation; the words with an immediate or a register number match their row. -/
theorem decodeEncodeAgree : Obligations.DecodeEncodeAgree := by
  intro bpu i h
  cases i with
  | txpush imm => exact decode_encode_txpush (of_decide_eq_true h)
  | rxrd imm => exact decode_encode_rxrd bpu imm
  | rdsr n => exact decode_encode_rdsr bpu n
  | setdir l m => cases l <;> cases m <;> rfl
  | wrline l v | ext l v => cases l <;> cases v <;> rfl
  | rdline l => cases l <;> rfl
  | snoop on => cases on <;> rfl
  | nop | ien | idis | iclr | init | claim | txenq | txclr | rxlen | rxack | sample | asm | reset => rfl

/-- Settles O2: the row that the word matches is faithful. -/
theorem encodeDecodeAgree : Obligations.EncodeDecodeAgree := by
  intro bpu w i h
  obtain ⟨e, he, hm, hread⟩ := decode_ok_iff.1 h
  exact entries_faithful e he bpu w i hm hread

/-- A word decodes exactly where it selects a row of R94. -/
theorem decode_isOk_iff (bpu : Nat) (w : Word) :
    (∃ i, decode bpu w = .ok i) ↔ ∃ r ∈ opcodeRows, r.selects bpu w = true := by
  simp only [← entries_map_row, List.mem_map, exists_exists_and_eq_and, Entry.row_selects_iff, decode_ok_iff]
  constructor
  · rintro ⟨i, e, he, hm, hread⟩
    exact ⟨e, he, hm, i, hread⟩
  · rintro ⟨e, he, hm, i, hread⟩
    exact ⟨i, e, he, hm, hread⟩

/-- Settles O3: the reserved words are those that do not decode, and the rows conflict pairwise. -/
theorem decodeSelectsOneRow : Obligations.DecodeSelectsOneRow := by
  refine ⟨decode_isOk_iff, fun bpu w => ?reserved, opcodeRows_conflict.imp fun h bpu w hboth => ?disjoint⟩
  case reserved =>
    have hnot : (∃ e, decode bpu w = .error e) ↔ ¬∃ i, decode bpu w = .ok i := by
      cases decode bpu w <;> simp
    simp [hnot, decode_isOk_iff]
  case disjoint => exact h.not_both (Row.selects_iff.1 hboth.1).1 (Row.selects_iff.1 hboth.2).1

/-- Settles O4: each of the words is the encoder's for its instruction. -/
theorem decodeSpecWords : Obligations.DecodeSpecWords :=
  ⟨decodeEncodeAgree 8 (.setdir .busy .output) rfl, decodeEncodeAgree 8 (.wrline .data .low) rfl,
    decodeEncodeAgree 8 .idis rfl, decodeEncodeAgree 8 (.snoop true) rfl, decodeEncodeAgree 8 (.txpush 0xDE#8) rfl,
    decodeEncodeAgree 8 (.rxrd 3#8) rfl, decodeEncodeAgree 8 (.rdsr 15#4) rfl,
    decodeEncodeAgree 8 (.ext .busy .high) rfl, decodeEncodeAgree 8 .sample rfl, decodeEncodeAgree 8 .asm rfl,
    decodeEncodeAgree 8 .reset rfl⟩

end Sys2Proof
end

section
/-! PROOFS. A reserved word on the host port (R96). -/

namespace Sys2Proof.Machine

/-- On the host port a word that is no host command stands for nothing (R95, R96). -/
theorem fetch_ignored {p : Params} {w : Word}
    (h : (∃ e, decode p.bpu w = .error e) ∨ ∃ i, decode p.bpu w = .ok i ∧ i.isLabel = true) :
    fetch p (.port w) = .ignored := by
  obtain ⟨e, he⟩ | ⟨i, hd, hi⟩ := h
  · simp [fetch, he]
  · simp [fetch, hd, hi]

/-- A word that stands for nothing is taken off the schedule and answered with 0x00 (R96). -/
theorem step_ignored {s : State} {e : Presented} {rest : List Presented} (hp : s.pending = e :: rest)
    (hf : fetch Config.params e = .ignored) :
    step s = .next (({ s with pending := rest } : State).respond nothing) := by
  simp [step, hp, hf, ignoreReserved]

/-- Settles O6, for a word that does not decode and for a label word. -/
theorem reservedWordIsIgnored : Obligations.ReservedWordIsIgnored := fun _ _ _ hp hw =>
  step_ignored hp (fetch_ignored hw)

end Sys2Proof.Machine
end

section
/-! PROOFS. The Line Driver: the wire, the three steps that change a line (SETDIR, WRLINE, EXT) and RDLINE. -/

namespace Sys2Proof.Machine

/-! ### The wire -/

/-- A node pulls a line by driving it LOW (R120). -/
theorem pull_iff {s : State} {l : Line} : pull s l = true ↔ s.dir.get l = .output ∧ s.out.get l = .low := by
  simp [pull]

/-- The wire is LOW where anybody pulls it (R121). -/
theorem wire_low_iff {s : State} {l : Line} : wire s l = .low ↔ s.extLevel.get l = .low ∨ pull s l = true := by
  cases he : s.extLevel.get l <;> simp [wire, he]

/-- The wire is HIGH where nobody pulls it (R121). -/
theorem wire_high_iff {s : State} {l : Line} :
    wire s l = .high ↔ s.extLevel.get l = .high ∧ pull s l = false := by
  cases he : s.extLevel.get l <;> simp [wire, he]

/-- Settles O9: the three readings of the definitions of `pull` and `wire`. -/
theorem wireIsTheWiredAnd : Obligations.WireIsTheWiredAnd := fun _ _ => ⟨pull_iff, wire_low_iff, wire_high_iff⟩

/-- A line that this node pulls is LOW, whatever the others do (R120, R121). -/
theorem wire_pulled {s : State} {l : Line} (hd : s.dir.get l = .output) (ho : s.out.get l = .low) :
    wire s l = .low :=
  wire_low_iff.2 (.inr (pull_iff.2 ⟨hd, ho⟩))

/-- The wires do not depend on the last response. -/
@[simp] theorem wire_respond (s : State) (r : Byte) (l : Line) : wire (s.respond r) l = wire s l := rfl

/-! ### RDLINE -/

/-- The response to a read of a line is 0x01 for HIGH and 0x00 for LOW (R17, R93). -/
theorem zextBit_levelBit (v : Level) : zextBit (levelBit v) = if v = .high then 0x01#8 else 0x00#8 := by
  cases v <;> rfl

/-- Settles O12, by the direction of the line. -/
theorem rdlineResult : Obligations.RdlineResult := by
  intro l s
  refine ⟨s.respond (zextBit (levelBit (readLine s l))), rfl, fun hd => ⟨wire_input hd, ?input⟩,
    fun hd => ?output, rfl, fun _ _ => rfl⟩
  case input => rw [respond_rsp, zextBit_levelBit, readLine_input hd]
  case output => rw [respond_rsp, zextBit_levelBit, readLine_output hd]

/-! ### The edge that a change of a line makes -/

/-- An edge found by the configured instance is a rise of the CLOCK wire (R13, R141). -/
theorem edgeFound_config {s : State} :
    edgeFound Config.params s = true ↔ s.clkPrev = .low ∧ wire s .clock = .high := by
  simp [edgeFound, activeEdge_iff, Config.params]

/-- What `edge_detect()` of the configured instance makes of `s` (R141). -/
structure EdgeRecorded (s t : State) : Prop where
  seen : t.clkPrev = wire t .clock
  pending : t.ipend = true ↔ s.ipend = true ∨ (s.clkPrev = .low ∧ wire t .clock = .high)
  lost : t.elost = true ↔ s.elost = true ∨
    (s.clkPrev = .low ∧ wire t .clock = .high ∧ s.ipend = true ∧ s.ien = true)

/-- `edge_detect()` sets IPEND at a rise of the CLOCK wire, and ELOST where one is pending and served (R141). -/
theorem edgeRecorded_edgeDetect (s : State) : EdgeRecorded s (edgeDetect Config.params s) where
  seen := edgeDetect_seen Config.params s
  pending := by rw [wire_edgeDetect, edgeDetect_eq, Bool.or_eq_true, edgeFound_config]
  lost := by
    rw [wire_edgeDetect, edgeDetect_eq]
    simp only [Bool.or_eq_true, Bool.and_eq_true, edgeFound_config, and_assoc]

/-! ### SETDIR -/

/-- The mode that a line already has makes no edge and changes nothing (R123). -/
theorem setDirection_same {p : Params} {l : Line} {m : Direction} {s : State} (hm : s.dir.get l = m)
    (hs : s.clkPrev = wire s .clock) : setDirection p l m s = s := by
  rw [setDirection, ← hm, Lines.set_get]
  exact edgeDetect_same hs

/-- Settles O10: the edge is what `edge_detect()` records of the new directions, and the level on the line is that of
a pulled, a released or an INPUT line. -/
theorem setdirResult : Obligations.SetdirResult := by
  intro l m s
  obtain ⟨seen, pending, lost⟩ := edgeRecorded_edgeDetect { s with dir := s.dir.set l m }
  have hdir : (setDirection Config.params l m s).dir.get l = m := by simp
  refine ⟨(setDirection Config.params l m s).respond nothing, rfl, hdir, fun k hk => ?others, rfl, seen, pending, lost,
    fun hm ho => ?pulled, fun ho => ?released, fun hm => ?input, fun hm hs => ?same, ?frame, fun b _ => ?buffers⟩
  case others => rw [respond_dir, setDirection_dir, Lines.get_set_other _ _ hk]
  case pulled => exact wire_pulled (hdir.trans hm) (by simpa using ho)
  case released =>
    have hreleased : (setDirection Config.params l m s).out.get l = .high := by simpa using ho
    rw [wire_respond, wire_released hreleased, setDirection_extLevel, wire_released ho]
  case input => rw [wire_respond, wire_input (hdir.trans hm), setDirection_extLevel]
  case same => rw [setDirection_same hm hs]; rfl
  case frame => rw [setDirection, edgeDetect_eq]; rfl
  case buffers => cases b <;> simp

/-! ### WRLINE -/

/-- WRLINE of an INPUT line (R124, R262). -/
theorem wrlineAt_input {p : Params} {l : Line} {v : Level} {s : State} (h : s.dir.get l = .input) :
    wrlineAt p l v s = .fault .callerMisuse := by
  simp [wrlineAt, writeLine_input h]

/-- WRLINE of an OUTPUT line (R124). -/
theorem wrlineAt_output {p : Params} {l : Line} {v : Level} {s : State} (h : s.dir.get l = .output) :
    wrlineAt p l v s = .next ((edgeDetect p { s with out := s.out.set l v }).respond nothing) := by
  simp [wrlineAt, writeLine_output h]

/-- Settles O11: an INPUT line faults; of an OUTPUT line the edge is what `edge_detect()` records of the new levels, and
the line is pulled with LOW and released with HIGH. -/
theorem wrlineResult : Obligations.WrlineResult := by
  intro l v s
  refine ⟨wrlineAt_input, fun hd => ?_⟩
  obtain ⟨seen, pending, lost⟩ := edgeRecorded_edgeDetect { s with out := s.out.set l v }
  have hout : (edgeDetect Config.params { s with out := s.out.set l v }).out.get l = v := by simp
  refine ⟨_, wrlineAt_output hd, hout, fun k hk => ?others, rfl, seen, pending, lost, fun hv => ?pulled,
    fun hv => ?released, fun hv hs => ?same, ?frame, fun b _ => ?buffers⟩
  case others => rw [respond_out, edgeDetect_out, Lines.get_set_other _ _ hk]
  case pulled => exact wire_pulled (by simpa using hd) (hout.trans hv)
  case released => rw [wire_respond, wire_released (hout.trans hv), edgeDetect_extLevel]
  case same => rw [← hv, Lines.set_get, edgeDetect_same hs]; rfl
  case frame => rw [edgeDetect_eq]; rfl
  case buffers => cases b <;> simp

/-! ### EXT -/

/-- A level that the environment already puts on a line makes no edge and changes nothing (R128). -/
theorem externalChange_same {p : Params} {l : Line} {v : Level} {s : State} (hv : s.extLevel.get l = v)
    (hs : s.clkPrev = wire s .clock) : externalChange p l v s = s := by
  rw [externalChange, ← hv, Lines.set_get]
  exact edgeDetect_same hs

/-- Settles O13: the edge is what `edge_detect()` records of the environment's new levels. -/
theorem extResult : Obligations.ExtResult := by
  intro l v s
  obtain ⟨seen, pending, lost⟩ := edgeRecorded_edgeDetect { s with extLevel := s.extLevel.set l v }
  refine ⟨externalChange Config.params l v s, rfl, ?line, fun k hk => ?others, seen, pending, lost, externalChange_same,
    ?frame, fun b _ => ?buffers⟩
  case line => rw [externalChange_extLevel, Lines.get_set_same]
  case others => rw [externalChange_extLevel, Lines.get_set_other _ _ hk]
  case frame => rw [externalChange, edgeDetect_eq]
  case buffers => cases b <;> simp

end Sys2Proof.Machine
end

section
/-! PROOFS. The Interrupt Controller: what its three host commands answer, at every instance of the block. -/

namespace Sys2Proof.Machine

/-- IEN sets the enable bit and keeps a pending edge (R142, R145). -/
theorem execAt_ien (p : Params) (s : State) :
    execAt p .ien s = .next { s with ien := true, rsp := 0x00#8 } := rfl

/-- IDIS clears the enable bit and keeps a pending edge (R143, R146). -/
theorem execAt_idis (p : Params) (s : State) :
    execAt p .idis s = .next { s with ien := false, rsp := 0x00#8 } := rfl

/-- ICLR discards a pending edge and keeps the enable bit (R144, R147). -/
theorem execAt_iclr (p : Params) (s : State) :
    execAt p .iclr s = .next { s with ipend := false, rsp := 0x00#8 } := rfl

/-- Settles O15, command by command: each is its operation of every instance, at the parameters of Config. -/
theorem interruptCommandsResult : Obligations.InterruptCommandsResult := by
  intro s
  refine ⟨?ien, ?idis, ?iclr⟩
  case ien => exact (exec_eq_execAt .ien s).trans (execAt_ien Config.params s)
  case idis => exact (exec_eq_execAt .idis s).trans (execAt_idis Config.params s)
  case iclr => exact (exec_eq_execAt .iclr s).trans (execAt_iclr Config.params s)

end Sys2Proof.Machine
end

section
/-! PROOFS. What one SAMPLE does, receiving and transmitting (R160 to R167). -/

namespace Sys2Proof.Machine

/-! ### Transmitting, with CLOCK seen -/

/-- The next bit of the unit in hand is on DATA (R165). -/
def bitDriven (p : Params) (s : State) : State :=
  { s with out := s.out.set .data (levelOf (wireBit p s.txbyte s.bitcnt.toNat)) }

/-- Everything that `transmit_bit()` can do where the edge detector has seen CLOCK (R165 to R167): driving DATA makes no
edge. -/
theorem transmitBit_seen {p : Params} {s t : State} (hs : clockSeen s) :
    transmitBit p s = .ok t ↔ s.dir.data = .output ∧
      ((s.txvalid = true ∧ completesUnit p s = false ∧ t = { bitDriven p s with bitcnt := nextBitcnt p s }) ∨
        (s.txvalid = true ∧ completesUnit p s = true ∧ s.txidx.toNat + 1 < s.txlen.toNat ∧
          s.txidx.toNat + 1 < p.txMax ∧
          t = { bitDriven p s with
            bitcnt := 0#3, txidx := s.txidx + 1#8, txbyte := s.txbuf.read (s.txidx.toNat + 1) }) ∨
        (s.txvalid = true ∧ completesUnit p s = true ∧ s.txlen.toNat ≤ s.txidx.toNat + 1 ∧
          t = { bitDriven p s with bitcnt := 0#3, txvalid := false, txdone := true }) ∨
        (s.txvalid = false ∧
          t = { s with
            out := s.out.set .data .high, bitcnt := BitVec.ofNat 3 ((s.bitcnt.toNat + 1) % p.bpu) })) := by
  have drives (hd : s.dir.data = .output) (hv : s.txvalid = true) :
      writeLine p .data (if s.txvalid then levelOf (wireBit p s.txbyte s.bitcnt.toNat) else .high) s =
        .ok (bitDriven p s) := by
    rw [if_pos hv]
    exact writeLine_quiet (by simp) hd hs
  have releases (hd : s.dir.data = .output) (hv : s.txvalid = false) :
      writeLine p .data (if s.txvalid then levelOf (wireBit p s.txbyte s.bitcnt.toNat) else .high) s =
        .ok { s with out := s.out.set .data .high } := by
    rw [if_neg (by simp [hv])]
    exact writeLine_quiet (by simp) hd hs
  rw [transmitBit_ok]
  constructor
  · rintro ⟨u, hu, h⟩
    obtain ⟨hd, -⟩ := writeLine_ok.1 hu
    refine ⟨hd, ?_⟩
    obtain ⟨hv, hc, rfl⟩ | ⟨hv, hc, h⟩ | ⟨hv, rfl⟩ := h
    · cases (drives hd hv).symm.trans hu
      exact .inl ⟨hv, hc, rfl⟩
    · cases (drives hd hv).symm.trans hu
      obtain ⟨hmore, hcap, rfl⟩ | ⟨hlast, rfl⟩ := transmitComplete_ok.1 h
      · exact .inr (.inl ⟨hv, hc, hmore, hcap, rfl⟩)
      · exact .inr (.inr (.inl ⟨hv, hc, hlast, rfl⟩))
    · cases (releases hd hv).symm.trans hu
      exact .inr (.inr (.inr ⟨hv, rfl⟩))
  · rintro ⟨hd, ⟨hv, hc, rfl⟩ | ⟨hv, hc, hmore, hcap, rfl⟩ | ⟨hv, hc, hlast, rfl⟩ | ⟨hv, rfl⟩⟩
    · exact ⟨_, drives hd hv, .inl ⟨hv, hc, rfl⟩⟩
    · exact ⟨_, drives hd hv, .inr (.inl ⟨hv, hc, transmitComplete_ok.2 (.inl ⟨hmore, hcap, rfl⟩)⟩)⟩
    · exact ⟨_, drives hd hv, .inr (.inl ⟨hv, hc, transmitComplete_ok.2 (.inr ⟨hlast, rfl⟩)⟩)⟩
    · exact ⟨_, releases hd hv, .inr (.inr ⟨hv, rfl⟩)⟩

/-! ### Receiving and transmitting -/

/-- Of eight bits the last is number 7 (R10, R163). -/
theorem completesUnit_config {s : State} : completesUnit Config.params s = true ↔ s.bitcnt = 7#3 := by
  rw [completesUnit_iff, ← BitVec.toNat_inj]
  exact Nat.succ_inj (b := 7)

/-- Before the last of eight bits the counter counts (R163). -/
theorem nextBitcnt_config {s : State} (h : s.bitcnt ≠ 7#3) : nextBitcnt Config.params s = s.bitcnt + 1#3 :=
  nextBitcnt_inside (mt completesUnit_iff.2 (mt completesUnit_config.1 h))

/-- SHIFT after one more bit of eight, the most significant first (R162): the bit that leaves the unit is dropped. -/
theorem shiftIn_config (old : Byte) (v : Level) :
    shiftIn Config.params old (levelBit v) = BitVec.ofNat 8 (2 * old.toNat + if v = .high then 1 else 0) := by
  apply BitVec.eq_of_toNat_eq
  cases v <;> simp [shiftIn, Config.params, levelBit]

/-- Settles O18, by the three results of a received bit: inside a unit, a unit stored, a unit with no room. -/
theorem sampleReceiveResult : Obligations.SampleReceiveResult := by
  intro s hien hipend htdir
  obtain ⟨t, ht⟩ := receiveBit_total Config.params (takeInterrupt s)
  have hbit := receiveBit_ok.1 ht
  rw [completesUnit_config, ← Bool.not_eq_true, completesUnit_config, shiftIn_config] at hbit
  refine ⟨t, sampleAt_next.2 ⟨hien, hipend, .inl ⟨htdir, ht⟩⟩, fun hc => ?inside, fun hc hroom => ?stored,
    fun hc hfull => ?overflow⟩
  case inside =>
    obtain ⟨hn, rfl⟩ | ⟨hn, -⟩ | ⟨hn, -⟩ := hbit
    · rw [nextBitcnt_config hn]
      rfl
    · exact absurd hn hc
    · exact absurd hn hc
  case stored =>
    obtain ⟨hn, -⟩ | ⟨-, -, rfl⟩ | ⟨-, hfull, -⟩ := hbit
    · exact absurd hc hn
    · exact ⟨rfl, fun hwf => read_write_same _ _ hwf, fun a ha => read_write_other _ ha⟩
    · exact absurd hroom (Nat.not_lt.2 hfull)
  case overflow =>
    obtain ⟨hn, -⟩ | ⟨-, hroom, -⟩ | ⟨-, -, rfl⟩ := hbit
    · exact absurd hc hn
    · exact absurd hroom (Nat.not_lt.2 hfull)
    · rfl

/-- Settles O19, by the three results of a transmitted bit: inside a unit, another unit follows, the frame is out. -/
theorem sampleTransmitResult : Obligations.SampleTransmitResult := by
  intro s hien hipend htdir hvalid hdata hseen hlen out
  have sends {t : State} (h : transmitBit Config.params (takeInterrupt s) = .ok t) : exec .sample s = .next t :=
    sampleAt_next.2 ⟨hien, hipend, .inr ⟨htdir, h⟩⟩
  have hbit {t : State} := transmitBit_seen (p := Config.params) (s := takeInterrupt s) (t := t) hseen
  refine ⟨fun hc => ?inside, fun hc hmore => ?next, fun hc hlast => ?last⟩
  case inside =>
    have hn : completesUnit Config.params (takeInterrupt s) = false :=
      Bool.eq_false_iff.2 (mt completesUnit_config.1 hc)
    rw [← nextBitcnt_config hc]
    exact sends (hbit.2 ⟨hdata, .inl ⟨hvalid, hn, rfl⟩⟩)
  case next =>
    exact sends (hbit.2 ⟨hdata, .inr (.inl ⟨hvalid, completesUnit_config.2 hc, hmore, hmore.trans_le hlen, rfl⟩)⟩)
  case last =>
    exact sends (hbit.2 ⟨hdata, .inr (.inr (.inl ⟨hvalid, completesUnit_config.2 hc, hlast, rfl⟩))⟩)

/-- Settles O20: the counter, counted modulo BPU, fits in its three bits. -/
theorem sampleUnderflowHold : Obligations.SampleUnderflowHold := by
  intro p s hp hien hipend htdir hvalid hdata hseen
  have hbit := (transmitBit_seen (p := p) (s := takeInterrupt s) hseen).2 ⟨hdata, .inr (.inr (.inr ⟨hvalid, rfl⟩))⟩
  refine ⟨_, sampleAt_next.2 ⟨hien, hipend, .inr ⟨htdir, hbit⟩⟩, ?counter, rfl, rfl⟩
  case counter =>
    have hlt : (s.bitcnt.toNat + 1) % p.bpu < p.bpu := Nat.mod_lt _ hp.bpu_pos
    exact (BitVec.toNat_ofNat _ 3).trans (Nat.mod_eq_of_lt (hlt.trans_le hp.bpu_le))

/-- Settles O24, by the results of a received and of a transmitted bit: only a unit stored changes FBUF. -/
theorem sampleWritesOnly : Obligations.SampleWritesOnly := by
  intro p s t hseen h
  obtain ⟨-, -, ⟨-, hbit⟩ | ⟨-, hbit⟩⟩ := sampleAt_next.1 h
  · obtain ⟨-, rfl⟩ | ⟨-, -, rfl⟩ | ⟨-, -, rfl⟩ := receiveBit_ok.1 hbit
    · exact ⟨rfl, fun _ _ => rfl⟩
    · exact ⟨rfl, fun _ ha => read_write_other _ ha⟩
    · exact ⟨rfl, fun _ _ => rfl⟩
  · have hsent := (transmitBit_seen (s := takeInterrupt s) hseen).1 hbit
    obtain ⟨-, ⟨-, -, rfl⟩ | ⟨-, -, -, -, rfl⟩ | ⟨-, -, -, rfl⟩ | ⟨-, rfl⟩⟩ := hsent <;> exact ⟨rfl, fun _ _ => rfl⟩

end Sys2Proof.Machine
end

section
/-! PROOFS. A frame passes from a transmitter to a receiver that share DATA (R170 b): each bit that the one drives is an
RXBIT for the other, so each unit is an RXUNIT (R99), and the units follow one another. -/

namespace Sys2Proof.Machine

/-! ### Runs and counters -/

/-- A single step as a run. -/
theorem runSteps_single {p : Params} {i : Instr} {s t : State} :
    runSteps p [i] s = some t ↔ execAt p i s = .next t := by
  cases h : execAt p i s <;> simp [runSteps, h]

/-- The edge detector has seen CLOCK after every run (R25, R141). -/
theorem clockSeen_runSteps {p : Params} {is : List Instr} {s t : State} (hs : clockSeen s)
    (h : runSteps p is s = some t) : clockSeen t := by
  induction is generalizing s with
  | nil => cases h; exact hs
  | cons i is ih =>
    cases hi : execAt p i s with
    | next u => exact ih (clockSeen_execAt hs hi) (runSteps_cons hi ▸ h)
    | fault _ | refused _ => simp [runSteps, hi] at h

/-- Bits passed one list after the other. -/
theorem passBits_add {p q : Params} {m n : Nat} {a b a' b' : State} (h : passBits p q m a b = some (a', b')) :
    passBits p q (m + n) a b = passBits p q n a' b' := by
  induction m generalizing a b with
  | zero => cases h; rw [Nat.zero_add]
  | succ m ih =>
    rw [Nat.add_right_comm]
    simp only [passBits] at h ⊢
    cases hbit : passBit p q a b with
    | none => simp [hbit] at h
    | some c => simp only [hbit] at h ⊢; exact ih h

/-- A counter of units counts on below its capacity (R250). -/
theorem toNat_add_one {x : Byte} {n : Nat} (hx : x.toNat = n) (hn : n < 255) : (x + 1#8).toNat = n + 1 := by
  bv_omega

/-! ### The wire between the two nodes -/

/-- A line that this node alone drives has the level it drives (R120, R121). -/
theorem wire_driven {s : State} {l : Line} (hd : s.dir.get l = .output) (he : s.extLevel.get l = .high) :
    wire s l = s.out.get l := by
  cases ho : s.out.get l with
  | low => exact wire_pulled hd ho
  | high => rw [wire_released ho, he]

/-- The order of the bits on the wire is that of the unit size and the bit order alone (R62). -/
theorem wireBit_congr {p q : Params} (hbpu : p.bpu = q.bpu) (horder : p.bitOrder = q.bitOrder) :
    wireBit p = wireBit q := by
  funext u j
  rw [wireBit, wireBit, wireIndex, wireIndex, hbpu, horder]

/-! ### The clock pulse -/

/-- The state after a pulse of the clock, but for the edge that it makes pending (R99). -/
def clocked (p : Params) (s : State) : State :=
  { s with extLevel := s.extLevel.set .clock (activeLevel p), clkPrev := activeLevel p }

/-- One pulse of the clock, as that state with an edge pending (R99, R141). -/
theorem runSteps_clocked {p : Params} {s : State} (hc : s.dir.clock = .input) (hi : s.ipend = false) :
    runSteps p (clockPulse p) s = some { clocked p s with ipend := true } :=
  runSteps_clockPulse hc hi

/-- The edge detector has seen the pulse (R25). -/
theorem clockSeen_clocked {p : Params} {s : State} (hc : s.dir.clock = .input) : clockSeen (clocked p s) :=
  (wire_input (s := clocked p s) (l := .clock) hc).symm

/-! ### The receiver -/

/-- The receiver hears an RXBIT, although the bit comes after the pulse (R99). -/
theorem runSteps_heardBit {q : Params} {v : Bool} {s : State} (h : Listening s) :
    runSteps q (clockPulse q ++ [.ext .data (levelOf v), .sample]) s = runSteps q (rxBit q v) s := by
  have hafter := runSteps_clocked (p := q) (s := { s with extLevel := s.extLevel.set .data (levelOf v) })
    h.clock_input h.ipend
  have hseen : clockSeen { clocked q s with ipend := true } := clockSeen_clocked (p := q) h.clock_input
  rw [rxBit, runSteps_cons (execAt_ext q .data _ s), externalChange_data h.seen, runSteps_append, runSteps_append,
    hafter, runSteps_clocked h.clock_input h.ipend, Option.bind_some, Option.bind_some,
    runSteps_cons (execAt_ext q .data _ _), externalChange_data hseen]
  rfl

/-- The state once the edge detector has seen CLOCK as it is. -/
def synced (s : State) : State := { s with clkPrev := wire s .clock }

/-- What the edge detector saw before a clock pulse makes no difference after it (R141). -/
theorem passBit_synced {p q : Params} {a b : State} (hc : b.dir.clock = .input) (hi : b.ipend = false) :
    passBit p q a b = passBit p q a (synced b) := by
  have hpulse : runSteps q (clockPulse q) b = runSteps q (clockPulse q) (synced b) := by
    rw [runSteps_clocked hc hi, runSteps_clocked (s := synced b) hc hi]
    rfl
  unfold passBit
  simp only [runSteps_append, hpulse]

/-- The same of any number of bits but none. -/
theorem passBits_synced {p q : Params} {n : Nat} {a b : State} (hn : 0 < n) (hc : b.dir.clock = .input)
    (hi : b.ipend = false) : passBits p q n a b = passBits p q n a (synced b) := by
  obtain ⟨m, rfl⟩ := Nat.exists_eq_add_one.2 hn
  rw [passBits, passBits, passBit_synced hc hi]

/-- A receiver `t` that has taken the first `k` units of the frame `m` since `b`, one after the other (R164, R170). -/
structure UnitsTaken (q : Params) (m : Memory) (k : Nat) (b t : State) : Prop where
  listening : Listening t
  bitcnt : t.bitcnt = 0#3
  shift : t.shift = 0#8
  fbuf_wf : t.fbuf.wf q.frameMax = true
  flen : t.flen.toNat = b.flen.toNat + k
  units : ∀ j, j < k → t.fbuf.read (b.flen.toNat + j) = m.read j
  below : ∀ i, i < b.flen.toNat → t.fbuf.read i = b.fbuf.read i

/-- RXUNIT of the next unit of a frame (R99, R164). -/
theorem UnitsTaken.next {q : Params} {m : Memory} {k : Nat} {b s : State} (hq : q.Valid)
    (h : UnitsTaken q m k b s) (hu : (m.read k).toNat < 2 ^ q.bpu) (hroom : b.flen.toNat + k < q.frameMax) :
    ∃ t, runSteps q (rxUnit q (m.read k)) s = some t ∧ UnitsTaken q m (k + 1) b t := by
  have hmax := hq.frameMax_le
  have hflen := h.flen
  obtain ⟨ext, clk, ht⟩ := runSteps_rxUnit hq hu h.listening h.bitcnt h.shift (by omega)
  refine ⟨_, ht, { h with listening := ?listening, fbuf_wf := ?wf, flen := ?flen, units := ?units, below := ?below }⟩
  case listening => exact { h.listening with seen := clockSeen_runSteps h.listening.seen ht }
  case wf => exact wf_write _ h.fbuf_wf (by omega)
  case flen => exact toNat_add_one (n := b.flen.toNat + k) hflen (by omega)
  case units =>
    intro j hj
    simp only [hflen]
    obtain hj | rfl := Nat.lt_succ_iff_lt_or_eq.1 hj
    · rw [read_write_other _ (by omega), h.units j hj]
    · exact read_write_same _ _ h.fbuf_wf
  case below =>
    intro i hi
    simp only [hflen]
    rw [read_write_other _ (by omega), h.below i hi]

/-! ### The transmitter -/

/-- A transmitter `t` of the frame that `a` holds, about to drive the bit number `j` of the unit number `k` (R165). -/
structure Sending (a : State) (k j : Nat) (t : State) : Prop where
  ien : t.ien = true
  ipend : t.ipend = false
  tdir : t.tdir = .transmitting
  clock_input : t.dir.clock = .input
  data_output : t.dir.data = .output
  data_released : t.extLevel.data = .high
  txvalid : t.txvalid = true
  bitcnt : t.bitcnt.toNat = j
  txidx : t.txidx.toNat = k
  txbyte : t.txbyte = a.txbuf.read k
  txbuf : t.txbuf = a.txbuf
  txlen : t.txlen = a.txlen

/-- A transmitter `t` that has sent the first `k` units of the frame that `a` holds: the next one is in hand, or the
frame is out (R166). -/
structure UnitsSent (a : State) (k : Nat) (t : State) : Prop where
  more : k < a.txlen.toNat → Sending a k 0 t
  done : k = a.txlen.toNat → t.txdone = true ∧ t.txvalid = false

/-- TXBIT: the sampler drives one bit, and DATA carries what the sampler drives (R99, R161). -/
theorem runSteps_txBit {p : Params} {a s t : State} {k j : Nat} (h : Sending a k j s)
    (ht : transmitBit p (clocked p s) = .ok t) : runSteps p (txBit p) s = some t := by
  have htaken : takeInterrupt { clocked p s with ipend := true } = clocked p s := by
    rw [takeInterrupt, clocked, h.ipend]
  rw [txBit, runSteps_append, runSteps_clocked h.clock_input h.ipend, Option.bind_some, runSteps_single]
  exact sampleAt_next.2 ⟨h.ien, rfl, .inr ⟨h.tdir, htaken ▸ ht⟩⟩

/-- While the next bit is driven the other nodes hear it (R121, R165). -/
theorem wire_bitDriven {p : Params} {a s : State} {k j : Nat} (h : Sending a k j s) :
    wire (bitDriven p (clocked p s)) .data = levelOf (wireBit p (a.txbuf.read k) j) := by
  rw [wire_driven (s := bitDriven p (clocked p s)) (l := .data) h.data_output h.data_released, ← h.bitcnt, ← h.txbyte]
  rfl

/-- TXBIT inside a unit (R163, R165). -/
theorem Sending.inside {p : Params} {a s : State} {k j : Nat} (hp : p.Valid) (h : Sending a k j s)
    (hj : j + 1 < p.bpu) :
    ∃ t, runSteps p (txBit p) s = some t ∧ Sending a k (j + 1) t ∧
      wire t .data = levelOf (wireBit p (a.txbuf.read k) j) := by
  have hle := hp.bpu_le
  have hbitcnt : (clocked p s).bitcnt.toNat = j := h.bitcnt
  have hinside : completesUnit p (clocked p s) = false :=
    Bool.eq_false_iff.2 (mt completesUnit_iff.1 (by omega))
  have hnext : (nextBitcnt p (clocked p s)).toNat = j + 1 := by
    rw [nextBitcnt, if_neg (by omega), hbitcnt]
    exact Nat.mod_eq_of_lt (by omega)
  have hbit := (transmitBit_seen (clockSeen_clocked h.clock_input)).2 ⟨h.data_output, .inl ⟨h.txvalid, hinside, rfl⟩⟩
  exact ⟨_, runSteps_txBit h hbit, { h with bitcnt := hnext }, wire_bitDriven h⟩

/-- TXBIT at the end of a unit: the next unit is in hand, or the frame is out (R163, R166). -/
theorem Sending.unitEnds {p : Params} {a s : State} {k j : Nat} (h : Sending a k j s) (hj : j + 1 = p.bpu)
    (hk : k < a.txlen.toNat) (hlen : a.txlen.toNat ≤ p.txMax) :
    ∃ t, runSteps p (txBit p) s = some t ∧ UnitsSent a (k + 1) t ∧
      wire t .data = levelOf (wireBit p (a.txbuf.read k) j) := by
  have hidx : (clocked p s).txidx.toNat = k := h.txidx
  have htxlen : (clocked p s).txlen = a.txlen := h.txlen
  have hcomplete : completesUnit p (clocked p s) = true := completesUnit_iff.2 (by rw [← hj, ← h.bitcnt]; rfl)
  have hbit {t : State} := transmitBit_seen (p := p) (s := clocked p s) (t := t) (clockSeen_clocked h.clock_input)
  obtain hmore | hlast := Nat.lt_or_ge (k + 1) a.txlen.toNat
  · have hsent := hbit.2 ⟨h.data_output, .inr (.inl
      ⟨h.txvalid, hcomplete, by rw [hidx, htxlen]; exact hmore, by omega, rfl⟩)⟩
    have hbyte := a.txlen.isLt
    have hnext : ((clocked p s).txidx + 1#8).toNat = k + 1 := toNat_add_one hidx (by omega)
    have hunit : (clocked p s).txbuf.read ((clocked p s).txidx.toNat + 1) = a.txbuf.read (k + 1) := by
      rw [hidx, ← h.txbuf]
      rfl
    exact ⟨_, runSteps_txBit h hsent,
      ⟨fun _ => { h with bitcnt := rfl, txidx := hnext, txbyte := hunit }, fun hk => by omega⟩, wire_bitDriven h⟩
  · have hsent := hbit.2 ⟨h.data_output, .inr (.inr (.inl
      ⟨h.txvalid, hcomplete, by rw [hidx, htxlen]; exact hlast, rfl⟩))⟩
    exact ⟨_, runSteps_txBit h hsent, ⟨fun hk => by omega, fun _ => ⟨rfl, rfl⟩⟩, wire_bitDriven h⟩

/-! ### One unit and the frame -/

/-- One more bit: TXBIT of the one node is RXBIT of the other (R170). -/
theorem passBits_succ {p q : Params} {n : Nat} {v : Bool} {a b s r t u : State}
    (h : passBits p q n a b = some (s, r)) (hs : runSteps p (txBit p) s = some t) (hw : wire t .data = levelOf v)
    (hlisten : Listening r) (hr : runSteps q (rxBit q v) r = some u) :
    passBits p q (n + 1) a b = some (t, u) := by
  rw [passBits_add h, passBits, passBit]
  simp only [hs, hw, runSteps_heardBit hlisten, hr, passBits]

section
variable {p q : Params} (hp : p.Valid) (hq : q.Valid) (hbpu : p.bpu = q.bpu) (horder : p.bitOrder = q.bitOrder)
include hp hq hbpu horder

/-- The bits of a unit but the last (R170). -/
theorem passBits_bits {a s r : State} {k : Nat} (hs : Sending a k 0 s) (hr : Listening r) (hbitcnt : r.bitcnt = 0#3)
    (hshift : r.shift = 0#8) {j : Nat} (hj : j < p.bpu) :
    ∃ t u, passBits p q j s r = some (t, u) ∧ Sending a k j t ∧ Listening u ∧
      runSteps q ((List.range j).flatMap fun i => rxBit q (wireBit q (a.txbuf.read k) i)) r = some u := by
  induction j with
  | zero => exact ⟨s, r, rfl, hs, hr, rfl⟩
  | succ j ih =>
    obtain ⟨t, u, hpass, ht, hu, hrun⟩ := ih (by omega)
    obtain ⟨t', hsend, ht', hw⟩ := ht.inside hp hj
    obtain ⟨u', hrun', taken⟩ := runSteps_bits (u := a.txbuf.read k) hq hr hbitcnt hshift (hbpu ▸ hj)
    rw [wireBit_congr hbpu horder] at hw
    exact ⟨t', u', passBits_succ hpass hsend hw hu ((runSteps_flatMap_succ hrun).symm.trans hrun'), ht',
      taken.listening, hrun'⟩

/-- One unit: what the one node sends is RXUNIT of that unit for the other (R99, R170). -/
theorem passBits_unit {a s r u : State} {k : Nat} (hk : k < a.txlen.toNat) (hlen : a.txlen.toNat ≤ p.txMax)
    (hs : Sending a k 0 s) (hr : Listening r) (hbitcnt : r.bitcnt = 0#3) (hshift : r.shift = 0#8)
    (hu : runSteps q (rxUnit q (a.txbuf.read k)) r = some u) :
    ∃ t, passBits p q p.bpu s r = some (t, u) ∧ UnitsSent a (k + 1) t := by
  obtain ⟨n, hn⟩ : ∃ n, p.bpu = n + 1 := Nat.exists_eq_add_one.2 hp.bpu_pos
  obtain ⟨t, r', hpass, ht, hr', hrun⟩ := passBits_bits hp hq hbpu horder hs hr hbitcnt hshift (j := n) (by omega)
  obtain ⟨t', hsend, hsent, hw⟩ := ht.unitEnds hn.symm hk hlen
  rw [wireBit_congr hbpu horder] at hw
  rw [rxUnit, ← hbpu, hn, runSteps_flatMap_succ hrun] at hu
  exact ⟨t', hn ▸ passBits_succ hpass hsend hw hr' hu, hsent⟩

/-- The units of a frame, one after the other (R170). -/
theorem passBits_units {a b : State} (hlen : a.txlen.toNat ≤ p.txMax)
    (hunits : ∀ j, (a.txbuf.read j).toNat < 2 ^ p.bpu) (hroom : b.flen.toNat + a.txlen.toNat ≤ q.frameMax)
    (hsend : UnitsSent a 0 a) (htake : UnitsTaken q a.txbuf 0 b b) {k : Nat} (hk : k ≤ a.txlen.toNat) :
    ∃ t u, passBits p q (k * p.bpu) a b = some (t, u) ∧ UnitsSent a k t ∧ UnitsTaken q a.txbuf k b u := by
  induction k with
  | zero => exact ⟨a, b, by rw [Nat.zero_mul]; rfl, hsend, htake⟩
  | succ k ih =>
    obtain ⟨t, u, hpass, hsent, htaken⟩ := ih (by omega)
    obtain ⟨u', hrun, htaken'⟩ := htaken.next hq (hbpu ▸ hunits k) (by omega)
    obtain ⟨t', hunit, hsent'⟩ := passBits_unit hp hq hbpu horder hk hlen (hsent.more hk) htaken.listening
      htaken.bitcnt htaken.shift hrun
    exact ⟨t', u', by rw [Nat.succ_mul, passBits_add hpass, hunit], hsent', htaken'⟩

end

/-- Settles O23: unit by unit, after the first clock pulse, which makes what the receiver's edge detector saw before it
irrelevant. -/
theorem transmitReceiveRoundTrip : Obligations.TransmitReceiveRoundTrip := by
  intro p q a b hp hq hbpu horder haien haipend hatdir haclock hadata hareleased habitcnt havalid haidx habyte hpos
    hlen hunits hbien hbipend hbtdir hbclock hbdata hbbitcnt hbshift hroom hwf
  have hsend : UnitsSent a 0 a := {
    more := fun _ => ⟨haien, haipend, hatdir, haclock, hadata, hareleased, havalid, by simp [habitcnt],
      by simp [haidx], habyte, rfl, rfl⟩
    done := fun h => by omega }
  have htake : UnitsTaken q a.txbuf 0 (synced b) (synced b) := {
    listening := ⟨hbien, hbipend, hbtdir, hbclock, hbdata, rfl⟩
    bitcnt := hbbitcnt
    shift := hbshift
    fbuf_wf := hwf
    flen := rfl
    units := fun j hj => absurd hj (Nat.not_lt_zero j)
    below := fun _ _ => rfl }
  obtain ⟨a', b', hpass, hsent, htaken⟩ :=
    passBits_units hp hq hbpu horder hlen hunits (b := synced b) hroom hsend htake le_rfl
  obtain ⟨hdone, hvalid⟩ := hsent.done rfl
  have hbits : 0 < a.txlen.toNat * p.bpu := Nat.mul_pos hpos hp.bpu_pos
  exact ⟨a', b', (passBits_synced hbits hbclock hbipend).trans hpass, htaken.flen, htaken.units, htaken.below, hdone,
    hvalid⟩

end Sys2Proof.Machine
end

section
/-! PROOFS. The Frame Assembler outside the reception of a frame: in IDLE, while transmitting, and at the end of a
transmission (R181 to R183, R196, R197). -/

namespace Sys2Proof.Machine

/-! ### Which case ASM is in (R180) -/

theorem asm_idle {p : Params} {s : State} (hp : s.phase = .idle) : execAt p .asm s = .next (idleCase s) :=
  asmAt_next.2 (.inl ⟨hp, rfl⟩)

theorem asm_master {p : Params} {s t : State} (hp : s.phase ≠ .idle) (hm : s.master = true)
    (h : masterCase p s = .ok t) : execAt p .asm s = .next t :=
  asmAt_next.2 (.inr (.inl ⟨hp, hm, h⟩))

theorem asm_responding {p : Params} {s t : State} (hp : s.phase = .responding) (hm : s.master = false)
    (h : respondingCase p s = .ok t) : execAt p .asm s = .next t :=
  asmAt_next.2 (.inr (.inr (.inl ⟨hp, hm, h⟩)))

/-! ### IDLE -/

theorem idleCase_high {s : State} (hb : readLine s .busy = .high) : idleCase s = { s with busyLast := .high } := by
  simp [idleCase, hb]

theorem idleCase_falls {s : State} (hb : readLine s .busy = .low) (hl : s.busyLast = .high) :
    idleCase s = startFrame { s with busyLast := .low } := by
  simp [idleCase, hb, hl]

theorem idleCase_low {s : State} (hb : readLine s .busy = .low) (hl : s.busyLast = .low) : idleCase s = s := by
  simp [idleCase, hb, hl]

/-- Settles O25, by the three cases of R181. -/
theorem asmIdleResult : Obligations.AsmIdleResult := by
  intro s hp
  rw [exec_eq_execAt, asm_idle hp]
  refine ⟨fun hb => ?high, fun hb hl => ?falls, fun hb hl => ?low⟩
  case high => rw [idleCase_high hb]
  case falls => rw [idleCase_falls hb hl]; rfl
  case low => rw [idleCase_low hb hl]

/-! ### Transmitting -/

/-- Settles O26: a master follows the unit it sends into the payload phase, once; a responder waits. -/
theorem asmWhileTransmitting : Obligations.AsmWhileTransmitting := by
  intro s hp hdone
  rw [exec_eq_execAt]
  refine ⟨fun hm ha hi => ?opens, fun hm hstay => ?master, fun hm hr => ?responder⟩
  case opens => exact asm_master hp hm (by simp [masterCase, hdone, ha, hi])
  case master =>
    have stays : ¬(s.phase = .addressPhase ∧ 1 ≤ s.txidx.toNat) := by
      rintro ⟨ha, hi⟩
      obtain hn | h0 := hstay
      · exact hn ha
      · simp [h0] at hi
    exact asm_master hp hm (by simp [masterCase, hdone, stays])
  case responder => exact asm_responding hr hm (by simp [respondingCase, hdone])

/-- With the last unit out, a master and a responder end the transmission alike (R183, R196). -/
theorem asm_transmitted {p : Params} {s t : State} (hp : s.phase ≠ .idle)
    (howns : s.master = true ∨ s.phase = .responding) (hdone : s.txdone = true) (h : endTransmit p s = .ok t) :
    execAt p .asm s = .next t := by
  cases hm : s.master with
  | true => exact asm_master hp hm ((if_pos hdone).trans h)
  | false => exact asm_responding (howns.resolve_left (by simp [hm])) hm ((if_pos hdone).trans h)

/-- Settles O27: the lines are this node's, so `end_transmit()` succeeds, and CLOCK has been seen, so it finds no
edge. -/
theorem asmEndsTransmission : Obligations.AsmEndsTransmission := by
  intro s hp howns hdone hdata hbusy hseen
  rw [exec_eq_execAt, asm_transmitted hp howns hdone (endTransmit_ok.2 ⟨hdata, hbusy, rfl⟩), edgeDetect_same hseen]
  rfl

end Sys2Proof.Machine
end

section
/-! PROOFS. The Frame Assembler receiving (R184 to R195): what becomes of the next unit that has not been examined,
and of a frame whose units all have been. -/

namespace Sys2Proof.Machine

/-! ### What the examination of a unit leaves alone -/

@[simp] theorem examined_master (p : Params) (s : State) : (examined p s).master = s.master := by rw [examined_eq]

@[simp] theorem examined_flen (p : Params) (s : State) : (examined p s).flen = s.flen := by rw [examined_eq]

@[simp] theorem examined_fbuf (p : Params) (s : State) : (examined p s).fbuf = s.fbuf := by rw [examined_eq]

@[simp] theorem examined_dbuf (p : Params) (s : State) : (examined p s).dbuf = s.dbuf := by rw [examined_eq]

@[simp] theorem examined_frdy (p : Params) (s : State) : (examined p s).frdy = s.frdy := by rw [examined_eq]

/-! ### One pass -/

theorem asm_receiving {p : Params} {s : State} (hr : s.phase = .addressPhase ∨ s.phase = .payloadPhase)
    (hm : s.master = false) : execAt p .asm s = finish (receiveCase p s) := by
  obtain hp | hp := hr <;> simp [execAt, asmAt, asmBody, hp, hm]

/-- With every unit examined, ASM looks for the end of the frame (R184). -/
theorem receiveCase_allExamined {p : Params} {s : State} (hr : receivingPhase s = true) (h : s.fproc = s.flen) :
    receiveCase p s = frameEndCheck p s := by
  simp [receiveCase, h, processUnits, hr, bind, Except.bind]

/-- A unit that ends the reception is the last one that the pass looks at (R184). -/
theorem receiveCase_unitEnds {p : Params} {s t : State} (hlt : s.fproc.toNat < s.flen.toNat)
    (hr : receivingPhase s = true) (hu : processUnit p s = .ok t) (ht : receivingPhase t = false) :
    receiveCase p s = .ok t := by
  obtain ⟨n, hn⟩ : ∃ n, s.flen.toNat - s.fproc.toNat = n + 1 := Nat.exists_eq_add_one.2 (Nat.sub_pos_of_lt hlt)
  have loop : processUnits p (n + 1) s = .ok t :=
    (processUnits_succ hlt hr).2 ⟨t, hu, processUnits_none fun h => by simp [ht] at h⟩
  exact receiveCase_ok.2 ⟨t, hn ▸ loop, .inr ⟨ht, rfl⟩⟩

/-- After a unit that is only counted the pass goes on as one that begins there (R184). -/
theorem receiveCase_unitCounted {p : Params} {s t : State} (hlt : s.fproc.toNat < s.flen.toNat)
    (hr : receivingPhase s = true) (hu : processUnit p s = .ok t) (hlen : t.flen = s.flen)
    (hproc : t.fproc.toNat = s.fproc.toNat + 1) : receiveCase p s = receiveCase p t := by
  have hn : s.flen.toNat - s.fproc.toNat = (t.flen.toNat - t.fproc.toNat) + 1 := by rw [hlen]; omega
  rw [receiveCase, receiveCase, hn, processUnits, if_pos ⟨hlt, hr⟩, hu]
  rfl

/-- A unit that PROTO is to judge: a frame is being received, its next unit is in FBUF, and it is not the address unit
of a frame that this node ignores (R184, R185). -/
structure NextUnit (p : Params) (s : State) : Prop where
  receiving : s.phase = .addressPhase ∨ s.phase = .payloadPhase
  listening : s.master = false
  appended : s.fproc.toNat < s.flen.toNat
  inside : s.flen.toNat ≤ p.frameMax
  wanted : s.phase = .addressPhase → s.fbuf.read 0 = p.nodeAddr ∨ s.snoop = true

section
variable {p : Params} {s t : State} (N : NextUnit p s)
include N

theorem NextUnit.inReception : receivingPhase s = true := receivingPhase_iff.2 N.receiving

/-- FPROC counts the unit without overflow (R185). -/
theorem NextUnit.fproc_succ : (examined p s).fproc.toNat = s.fproc.toNat + 1 := by
  have := N.appended
  have := s.flen.isLt
  rw [examined_eq]
  simp only [BitVec.toNat_add, BitVec.toNat_ofNat]
  omega

theorem NextUnit.fproc_inside : (examined p s).fproc.toNat ≤ p.frameMax :=
  N.fproc_succ.trans_le (N.appended.trans_le N.inside)

/-- The unit is examined and the verdict acted on (R185). -/
theorem NextUnit.processUnit_eq : processUnit p s = judgeAndAct p (examined p s) := by
  by_cases hp : s.phase = .addressPhase
  · have hc : 0 < p.frameMax := (Nat.zero_lt_of_lt N.appended).trans_le N.inside
    rw [processUnit_address hp hc, if_neg]
    rintro ⟨ha, hs⟩
    obtain h | h := N.wanted hp
    · exact ha h
    · simp [hs] at h
  · exact processUnit_payload hp

/-- What the verdict on the unit comes to, where it ends the reception, is what ASM comes to (R184). -/
theorem NextUnit.asm_ends (h : judgeAndAct p (examined p s) = .ok t) (ht : receivingPhase t = false) :
    execAt p .asm s = .next t := by
  rw [asm_receiving N.receiving N.listening,
    receiveCase_unitEnds N.appended N.inReception (N.processUnit_eq.trans h) ht, finish_ok]

/-- The verdict on the units with this one (R186). -/
theorem NextUnit.judge_eq {v : Verdict} (hv : p.judge (unitsExamined (examined p s)) (examined p s).addressed = v)
    (hown : v = .reply → (examined p s).addressed = true) : judge p (examined p s) = .ok v := by
  refine judge_ok.2 ⟨N.fproc_inside, ?_⟩
  rw [hv, if_neg fun ⟨hreply, hforeign⟩ => by simp [hown hreply] at hforeign]

end

/-! ### The early drop -/

/-- Settles O29: the address unit ends the reception before anything else of the frame is looked at. -/
theorem asmDropsForeignFrame : Obligations.AsmDropsForeignFrame := by
  intro p s hp hphase hm hlt hforeign hsnoop
  have hr : receivingPhase s = true := receivingPhase_iff.2 (.inl hphase)
  have hu : processUnit p s = .ok (toIdle s) := by
    rw [processUnit_address hphase hp.frameMax_pos, if_pos ⟨hforeign, hsnoop⟩]
  rw [asm_receiving (.inl hphase) hm, receiveCase_unitEnds hlt hr hu rfl]
  rfl

/-! ### A frame whose units have all been examined -/

theorem asm_allExamined {p : Params} {s t : State} (hr : s.phase = .addressPhase ∨ s.phase = .payloadPhase)
    (hm : s.master = false) (h : s.fproc = s.flen) (ht : frameEndCheck p s = .ok t) : execAt p .asm s = .next t := by
  rw [asm_receiving hr hm, receiveCase_allExamined (receivingPhase_iff.2 hr) h, ht, finish_ok]

/-- With no overflow and BUSY low the frame has not ended, and ASM waits (R195). -/
theorem asm_waits {p : Params} {s : State} (hr : s.phase = .addressPhase ∨ s.phase = .payloadPhase)
    (hm : s.master = false) (h : s.fproc = s.flen) (ho : s.fovf = false) (hb : readLine s .busy = .low) :
    execAt p .asm s = .next s :=
  asm_allExamined hr hm h (frameEndCheck_ok.2 (.inr (.inl ⟨ho, hb, rfl⟩)))

/-- Settles O28. -/
theorem asmWaitsForTheNextUnit : Obligations.AsmWaitsForTheNextUnit := by
  intro s hr hm h ho hb
  rw [exec_eq_execAt]
  exact asm_waits hr hm h ho hb

/-- Settles O35, by the cases of R195: an overflow, and a BUSY release with a unit half received, with units that are no
whole frame, or with nothing received. -/
theorem asmDiscardsTruncatedFrame : Obligations.AsmDiscardsTruncatedFrame := by
  intro p s _ hr hm h hc idle
  refine ⟨fun ho => ?overflow, fun ho hb hbits => ?halfUnit, fun ho hb hbits hunits hopen hreply => ?noFrame,
    fun ho hb hbits hunits => ?nothing⟩
  case overflow => exact asm_allExamined hr hm h (frameEndCheck_ok.2 (.inl ⟨ho, rfl⟩))
  case halfUnit => exact asm_allExamined hr hm h (frameEndCheck_ok.2 (.inr (.inr (.inl ⟨ho, hb, hbits, rfl⟩))))
  case noFrame =>
    have hj : judge p { s with busyLast := .high } = .ok (p.judge (unitsExamined s) s.addressed) :=
      judge_ok.2 ⟨h ▸ hc, (if_neg hreply).symm⟩
    exact asm_allExamined hr hm h (frameEndCheck_ok.2 (.inr (.inr (.inr (.inr
      ⟨ho, hb, hbits, hunits, _, hj, .inr ⟨hopen, rfl⟩⟩)))))
  case nothing =>
    exact asm_allExamined hr hm h (frameEndCheck_ok.2 (.inr (.inr (.inr (.inl ⟨ho, hb, hbits, hunits, rfl⟩)))))

/-! ### A unit that leaves the frame unfinished -/

/-- A verdict MORE or OPEN, or an observer's REPLY, does nothing but count the unit (R186, R187). -/
theorem NextUnit.processUnit_counted {p : Params} {s : State} (N : NextUnit p s)
    (hv : p.judge (unitsExamined (examined p s)) (examined p s).addressed = .more ∨
      p.judge (unitsExamined (examined p s)) (examined p s).addressed = .openEnded ∨
      (p.judge (unitsExamined (examined p s)) (examined p s).addressed = .reply ∧
        (examined p s).addressed = false)) :
    processUnit p s = .ok (examined p s) := by
  have hj : judge p (examined p s) = .ok .more ∨ judge p (examined p s) = .ok .openEnded := by
    obtain hmore | hopen | hreply := hv
    · exact .inl (N.judge_eq hmore nofun)
    · exact .inr (N.judge_eq hopen nofun)
    · exact .inr (judge_ok.2 ⟨N.fproc_inside, (if_pos hreply).symm⟩)
  exact N.processUnit_eq.trans (judgeAndAct_ok.2 (.inl ⟨hj, rfl⟩))

/-- Settles O30: the loop takes the unit and goes on from the state in which it is examined; after the last unit
nothing is left to do. -/
theorem asmAccumulatesUnit : Obligations.AsmAccumulatesUnit := by
  intro p s _ hr hm hlt hc hw e v hv
  have N : NextUnit p s := ⟨hr, hm, hlt, hc, hw⟩
  have hre : e.phase = .addressPhase ∨ e.phase = .payloadPhase := .inr (examined_phase N.inReception)
  have hmaster : e.master = s.master := examined_master p s
  have hlen : e.flen = s.flen := examined_flen p s
  have hovf : e.fovf = s.fovf := by simp only [e]; rw [examined_eq]
  have hbusy : readLine e .busy = readLine s .busy := by simp only [e]; rw [examined_eq]; rfl
  have goesOn : execAt p .asm s = execAt p .asm e := by
    rw [asm_receiving hr hm, asm_receiving hre (hmaster.trans hm),
      receiveCase_unitCounted hlt N.inReception (N.processUnit_counted hv) hlen N.fproc_succ]
  refine ⟨goesOn, fun hlast ho hb => goesOn.trans ?_⟩
  have hall : e.fproc = e.flen := BitVec.eq_of_toNat_eq (by rw [hlen, N.fproc_succ, hlast])
  exact asm_waits hre (hmaster.trans hm) hall (hovf.trans ho) (hbusy.trans hb)

/-! ### The last unit of a frame -/

/-- Settles O32: `discard()` sets FDISC and leaves nothing of the unit examined. -/
theorem asmDiscardsViolation : Obligations.AsmDiscardsViolation := by
  intro p s _ hr hm hlt hc hw e hv
  have N : NextUnit p s := ⟨hr, hm, hlt, hc, hw⟩
  have hact : judgeAndAct p e = .ok (discard e) := judgeAndAct_ok.2 (.inr (.inr (.inl ⟨N.judge_eq hv nofun, rfl⟩)))
  rw [N.asm_ends hact rfl, show e = _ from examined_eq p s]
  rfl

/-- A delivery where the last frame has been taken (R190). -/
theorem deliver_taken {p : Params} {s : State} (hf : s.frdy = false) (hc : s.fproc.toNat ≤ p.frameMax)
    (hw : s.dbuf.wf p.frameMax = true) :
    ∃ m, deliver p s = .ok { s with dbuf := m, dlen := s.fproc, dobs := !s.addressed, frdy := true } ∧
      (∀ a, a < s.fproc.toNat → m.read a = s.fbuf.read a) ∧
      ∀ a, s.fproc.toNat ≤ a → m.read a = s.dbuf.read a := by
  obtain ⟨t, ht⟩ := deliver_total hc
  obtain ⟨hf', -⟩ | ⟨-, -, m, rfl, hold, hnew⟩ := deliver_ok ht
  · simp [hf] at hf'
  · exact ⟨m, ht, (hnew hw).2, hold⟩

/-- Verdict COMPLETE on the unit (R188). -/
theorem NextUnit.asm_complete {p : Params} {s t : State} (N : NextUnit p s)
    (hv : p.judge (unitsExamined (examined p s)) (examined p s).addressed = .complete)
    (hd : deliver p (examined p s) = .ok t) : execAt p .asm s = .next (toIdle t) :=
  N.asm_ends (judgeAndAct_ok.2 (.inr (.inl ⟨N.judge_eq hv nofun, t, hd, rfl⟩))) rfl

/-- Settles O31, by whether the last frame has been taken. -/
theorem asmDeliversCompleteFrame : Obligations.AsmDeliversCompleteFrame := by
  intro p s _ hr hm hlt hc hwf hw e hv
  have N : NextUnit p s := ⟨hr, hm, hlt, hc, hw⟩
  have he : e = _ := examined_eq p s
  have hfrdy : e.frdy = s.frdy := examined_frdy p s
  refine ⟨fun hf => ?taken, fun hf => ?untaken⟩
  case taken =>
    obtain ⟨m, hd, hnew, hold⟩ :=
      deliver_taken (hfrdy.trans hf) N.fproc_inside ((examined_dbuf p s).symm ▸ hwf)
    refine ⟨_, N.asm_complete hv hd, ?_, fun a ha => ?_, fun a ha => ?_⟩
    · rw [he]; rfl
    · exact (hnew a ha).trans (by rw [examined_fbuf])
    · exact (hold a ha).trans (by rw [examined_dbuf])
  case untaken =>
    rw [N.asm_complete hv (deliver_untaken (hfrdy.trans hf)), examined_eq p s]
    rfl

/-! ### The owed response -/

/-- A command is delivered before it is answered, or counted as dropped (R190, R193): DBUF as `m`. -/
def commandTaken (s : State) (m : Memory) : State :=
  { s with
    dbuf := m, dlen := if s.frdy then s.dlen else s.fproc, dobs := if s.frdy then s.dobs else !s.addressed,
    frdy := true, fdrop := s.fdrop || s.frdy }

/-- A delivery, whether or not the last frame has been taken (R190). -/
theorem deliver_command {p : Params} {s : State} (hc : s.fproc.toNat ≤ p.frameMax)
    (hw : s.dbuf.wf p.frameMax = true) :
    ∃ m, deliver p s = .ok (commandTaken s m) ∧
      (∀ a, s.frdy = false → a < s.fproc.toNat → m.read a = s.fbuf.read a) ∧
      ∀ a, s.frdy = true ∨ s.fproc.toNat ≤ a → m.read a = s.dbuf.read a := by
  cases hf : s.frdy with
  | true =>
    refine ⟨s.dbuf, ?_, nofun, fun _ _ => rfl⟩
    rw [deliver_untaken hf]
    cases s
    simp_all [commandTaken]
  | false =>
    obtain ⟨m, hd, hnew, hold⟩ := deliver_taken hf hc hw
    refine ⟨m, ?_, fun a _ => hnew a, fun a ha => hold a (ha.resolve_left nofun)⟩
    rw [hd]
    simp [commandTaken, hf]

/-- The examination of a unit of this node's own frame (R185). -/
theorem examined_own {p : Params} {s : State} (hr : s.phase = .addressPhase ∨ s.phase = .payloadPhase)
    (ha : s.phase = .addressPhase → s.fbuf.read 0 = p.nodeAddr) (hp : s.phase = .payloadPhase → s.addressed = true) :
    examined p s = { s with phase := .payloadPhase, addressed := true, fproc := s.fproc + 1#8 } := by
  obtain h | h := hr
  · rw [examined, if_pos h, ha h, beq_self_eq_true]
  · rw [examined, if_neg (by simp [h]), ← hp h, ← h]

/-- Verdict REPLY on the unit (R193). -/
theorem NextUnit.asm_reply {p : Params} {s t : State} (N : NextUnit p s) (ha : (examined p s).addressed = true)
    (hv : p.judge (unitsExamined (examined p s)) true = .reply) (h : reply p (examined p s) = .ok t)
    (ht : receivingPhase t = false) : execAt p .asm s = .next t :=
  N.asm_ends (judgeAndAct_ok.2 (.inr (.inr (.inr ⟨N.judge_eq (ha.symm ▸ hv) fun _ => ha, h⟩)))) ht

/-- The delivery of the command whose last unit this is (R193). -/
theorem NextUnit.command_delivered {p : Params} {s : State} (N : NextUnit p s) (hw : s.dbuf.wf p.frameMax = true) :
    ∃ m, deliver p (examined p s) = .ok (commandTaken (examined p s) m) ∧
      (∀ a, s.frdy = false → a < (examined p s).fproc.toNat → m.read a = s.fbuf.read a) ∧
      ∀ a, s.frdy = true ∨ (examined p s).fproc.toNat ≤ a → m.read a = s.dbuf.read a := by
  simpa using deliver_command N.fproc_inside ((examined_dbuf p s).symm ▸ hw)

/-- Settles O33: the command is delivered, the response begins, and with CLOCK seen taking the lines finds no edge. -/
theorem asmBeginsResponse : Obligations.AsmBeginsResponse := by
  intro p s hvalid hr hm hlt hc hwf haddress hpayload hq hseen e hv
  subst e
  have N : NextUnit p s := ⟨hr, hm, hlt, hc, fun h => .inl (haddress h)⟩
  have he := examined_own hr haddress hpayload
  obtain ⟨m, hd, hreads⟩ := N.command_delivered hwf
  have hqueued : (commandTaken (examined p s) m).txq = true := by rw [he]; exact hq
  have hclock : (commandTaken (examined p s) m).clkPrev = wire (commandTaken (examined p s) m) .clock := by
    rw [he]; exact hseen
  have hreply := reply_ok.2 ⟨_, hd, .inl ⟨hqueued, beginResponse_eq hvalid.txMax_pos _⟩⟩
  rw [edgeDetect_same hclock] at hreply
  refine ⟨_, N.asm_reply (congrArg State.addressed he) hv hreply rfl, ?_, hreads⟩
  rw [he]
  rfl

/-- Settles O34: the command is delivered, and `to_idle()` follows. -/
theorem asmStaysSilent : Obligations.AsmStaysSilent := by
  intro p s _ hr hm hlt hc hwf haddress hpayload hq e hv
  subst e
  have N : NextUnit p s := ⟨hr, hm, hlt, hc, fun h => .inl (haddress h)⟩
  have he := examined_own hr haddress hpayload
  obtain ⟨m, hd, hreads⟩ := N.command_delivered hwf
  have hempty : (commandTaken (examined p s) m).txq = false := by rw [he]; exact hq
  have hreply := reply_ok.2 ⟨_, hd, .inr ⟨hempty, rfl⟩⟩
  refine ⟨_, N.asm_reply (congrArg State.addressed he) hv hreply rfl, ?_, hreads⟩
  rw [he]
  rfl

/-! ### A BUSY release after a whole frame -/

/-- Units judged OPEN, no unit half received, and BUSY released: the frame is delivered (R195). -/
theorem asm_released {p : Params} {s t : State} (hr : s.phase = .addressPhase ∨ s.phase = .payloadPhase)
    (hm : s.master = false) (h : s.fproc = s.flen) (hunits : s.fproc ≠ 0#8) (hbits : s.bitcnt = 0#3)
    (ho : s.fovf = false) (hb : readLine s .busy = .high)
    (hj : judge p { s with busyLast := .high } = .ok .openEnded)
    (hd : deliver p { s with busyLast := .high } = .ok t) : execAt p .asm s = .next (toIdle t) :=
  asm_allExamined hr hm h (frameEndCheck_ok.2 (.inr (.inr (.inr (.inr
    ⟨ho, hb, hbits, hunits, _, hj, .inl ⟨rfl, t, hd, rfl⟩⟩)))))

/-- Settles O36, by whether the last frame has been taken. -/
theorem asmDeliversOpenFrame : Obligations.AsmDeliversOpenFrame := by
  intro p s _ hr hm h hc hunits hbits ho hwf hb hv idle
  have hproc : s.fproc.toNat ≤ p.frameMax := h ▸ hc
  have hj : judge p { s with busyLast := .high } = .ok .openEnded := by
    refine judge_ok.2 ⟨hproc, ?_⟩
    change _ = if p.judge (unitsExamined s) s.addressed = .reply ∧ s.addressed = false then _ else _
    obtain hopen | hreply := hv
    · exact ((if_neg fun hreply => by simp [hopen] at hreply).trans hopen).symm
    · exact (if_pos hreply).symm
  refine ⟨fun hf => ?taken, fun hf => ?untaken⟩
  case taken =>
    obtain ⟨m, hd, hnew, hold⟩ := deliver_taken (s := { s with busyLast := .high }) hf hproc hwf
    exact ⟨_, asm_released hr hm h hunits hbits ho hb hj hd, rfl, hnew, hold⟩
  case untaken =>
    exact asm_released hr hm h hunits hbits ho hb hj (deliver_untaken (s := { s with busyLast := .high }) hf)

end Sys2Proof.Machine
end

section
/-! PROOFS. What ASM never writes (R205). -/

namespace Sys2Proof.Machine

/-- The fields that the Frame Assembler does not own are the same in `t` as in `s` (R205). -/
structure AsmUntouched (s t : State) : Prop where
  clockDir : t.dir.clock = s.dir.clock
  clockOut : t.out.clock = s.out.clock
  clkPrev : t.clkPrev = s.clkPrev
  snoop : t.snoop = s.snoop
  fbuf : t.fbuf = s.fbuf
  txbuf : t.txbuf = s.txbuf
  elost : t.elost = s.elost
  extLevel : t.extLevel = s.extLevel
  rsp : t.rsp = s.rsp
  pending : t.pending = s.pending

/-- What the edge detector has seen depends on fields that the Frame Assembler does not own (R121, R141). -/
theorem AsmUntouched.clockSeen {s t : State} (h : AsmUntouched s t) (hs : clockSeen s) : clockSeen t := by
  have hw : wire t .clock = wire s .clock := by simp [wire, pull, h.clockDir, h.clockOut, h.extLevel]
  exact h.clkPrev.trans (hs.trans hw.symm)

/-- With CLOCK seen in `s`, whatever ASM does to DATA and BUSY finds no edge, and what it does not own stays. -/
theorem asmKeeps_untouched {p : Params} {s : State} (hs : clockSeen s) : AsmKeeps p (AsmUntouched s) where
  busySeen _ _ h := { h with }
  frameStarts _ _ h := { h with }
  payloadOpens _ _ h := { h with }
  transmitEnds u t h ht := by
    obtain ⟨-, -, rfl⟩ := endTransmit_ok.1 ht
    rw [edgeDetect_same (h.clockSeen hs)]
    exact { h with }
  unitExamined u _ _ h := by rw [examined_eq]; exact { h with }
  frameDelivered u t h ht := by
    obtain ⟨-, rfl⟩ | ⟨-, -, m, rfl, -⟩ := deliver_ok ht <;> exact { h with }
  diagSet _ _ _ h := { h with }
  frameEnds _ _ _ h := { h with }
  responseBegins u t _ _ _ h ht := by
    rw [beginResponse_eq (txMax_pos_of_beginResponse ht), edgeDetect_same (h.clockSeen hs)] at ht
    cases ht
    exact { h with }

/-- Settles O37: every procedure of ASM leaves the fields that it does not own. -/
theorem asmWritesOnly : Obligations.AsmWritesOnly := by
  intro p s t hs h
  obtain ⟨hdir, hout, hprev, hsnoop, hfbuf, htxbuf, helost, hext, hrsp, hpending⟩ :=
    (asmKeeps_untouched hs).step ⟨rfl, rfl, rfl, rfl, rfl, rfl, rfl, rfl, rfl, rfl⟩ h
  dsimp only
  rw [← hdir, ← hout, ← hprev, ← hsnoop, ← hfbuf, ← htxbuf, ← helost, ← hext, ← hrsp, ← hpending]

end Sys2Proof.Machine
end

section
/-! PROOFS. A frame that ends without an answer (R190 to R192, R195). -/

namespace Sys2Proof.Machine

/-- What the end of a frame leaves alone unless this node answers it: the lines, the enqueued frame, MASTER, and the
DIAG bits ELOST and NOREPLY (R195, R202). -/
structure LeftAlone (s t : State) : Prop where
  dir : t.dir = s.dir
  out : t.out = s.out
  elost : t.elost = s.elost
  noreply : t.noreply = s.noreply
  txq : t.txq = s.txq
  master : t.master = s.master

@[refl] theorem LeftAlone.refl (s : State) : LeftAlone s s := ⟨rfl, rfl, rfl, rfl, rfl, rfl⟩

theorem leftAlone_deliver {p : Params} {s u t : State} (hu : LeftAlone s u) (h : deliver p u = .ok t) :
    LeftAlone s t := by
  obtain ⟨-, rfl⟩ | ⟨-, -, m, rfl, -⟩ := deliver_ok h <;> exact { hu with }

/-- The check for the end of the frame leaves the state or ends in IDLE, and leaves the lines and the queue alone
(R195). -/
theorem frameEndCheck_left {p : Params} {s u t : State} (hu : LeftAlone s u)
    (h : frameEndCheck p u = .ok t) :
    t = u ∨ (LeftAlone s t ∧ t.phase = .idle ∧ t.tdir = .receiving) := by
  have hseen : LeftAlone s { u with busyLast := .high } := { hu with }
  obtain ⟨-, rfl⟩ | ⟨-, -, rfl⟩ | ⟨-, -, -, rfl⟩ | ⟨-, -, -, -, rfl⟩ | ⟨-, -, -, -, v, -, h⟩ := frameEndCheck_ok.1 h
  · exact .inr ⟨{ hu with }, rfl, rfl⟩
  · exact .inl rfl
  · exact .inr ⟨{ hseen with }, rfl, rfl⟩
  · exact .inr ⟨{ hseen with }, rfl, rfl⟩
  · obtain ⟨-, w, hw, rfl⟩ | ⟨-, rfl⟩ := h
    · exact .inr ⟨{ leftAlone_deliver hseen hw with }, rfl, rfl⟩
    · exact .inr ⟨{ hseen with }, rfl, rfl⟩

end Sys2Proof.Machine
end

section
/-! PROOFS. The transitions of PHASE (R198). -/

namespace Sys2Proof.Machine

/-! ### ASM -/

/-- PROTO's REPLY stands only in this node's own frame (R186). -/
theorem addressed_of_reply {p : Params} {s : State} (h : judge p s = .ok .reply) : s.addressed = true := by
  obtain ⟨-, hv⟩ := judge_ok.1 h
  cases ha : s.addressed with
  | true => rfl
  | false =>
    split at hv
    · cases hv
    · next hn => exact absurd ⟨hv.symm, ha⟩ hn

/-- A delivery leaves ADDRESSED (R190). -/
theorem deliver_addressed {p : Params} {s t : State} (h : deliver p s = .ok t) : t.addressed = s.addressed := by
  obtain ⟨-, rfl⟩ | ⟨-, -, m, rfl, -⟩ := deliver_ok h <;> rfl

/-- A response begins from the queue of the state, in the phase RESPONDING (R194). -/
theorem beginResponse_phase {p : Params} {s t : State} (h : beginResponse p s = .ok t) :
    t.phase = .responding ∧ t.addressed = s.addressed := by
  rw [beginResponse_eq (txMax_pos_of_beginResponse h)] at h
  cases h
  simp

theorem endTransmit_phase {p : Params} {s t : State} (h : endTransmit p s = .ok t) : t.phase = .idle := by
  obtain ⟨-, -, rfl⟩ := endTransmit_ok.1 h
  rfl

/-- The phase after a unit of the frame (R185 to R194): the frame has ended, goes on in the payload phase, or was a
command to this node, which has a response enqueued. -/
theorem processUnit_phase {p : Params} {s t : State} (hr : receivingPhase s = true) (h : processUnit p s = .ok t) :
    t.phase = .idle ∨ t.phase = .payloadPhase ∨
      (t.phase = .responding ∧ s.txq = true ∧ t.addressed = true) := by
  obtain rfl | h := processUnit_cases h
  · exact .inl rfl
  obtain ⟨-, rfl⟩ | ⟨-, u, -, rfl⟩ | ⟨-, rfl⟩ | ⟨hj, h⟩ := judgeAndAct_ok.1 h
  · exact .inr (.inl (examined_phase hr))
  · exact .inl rfl
  · exact .inl rfl
  · obtain ⟨u, hu, ⟨hq, hb⟩ | ⟨-, rfl⟩⟩ := reply_ok.1 h
    · obtain ⟨-, -, hqueue⟩ := deliver_frame hu
      obtain ⟨hphase, haddressed⟩ := beginResponse_phase hb
      have hown := addressed_of_reply hj
      refine .inr (.inr ⟨hphase, ?_, haddressed.trans ((deliver_addressed hu).trans hown)⟩)
      rw [examined_eq] at hqueue
      exact hqueue.symm.trans hq
    · exact .inl rfl

/-- The phase of `t` after units of the frame in `s` have been examined: as it was where there were none. -/
def FrameStage (s t : State) : Prop :=
  t.phase = s.phase ∨ t.phase = .idle ∨ t.phase = .payloadPhase ∨
    (t.phase = .responding ∧ s.txq = true ∧ t.addressed = true)

/-- The phase after the receiving case (R184): the units in turn, then the end of the frame. -/
theorem receiveCase_phase {p : Params} {s t : State} (h : receiveCase p s = .ok t) : FrameStage s t := by
  obtain ⟨u, hu, h⟩ := receiveCase_ok.1 h
  have loop : QueueKept s u ∧ FrameStage s u := by
    refine processUnits_keeps (P := fun v => QueueKept s v ∧ FrameStage s v) ?_ ⟨⟨rfl, rfl, rfl⟩, .inl rfl⟩ hu
    rintro v w - hr ⟨hqueue, -⟩ hw
    exact ⟨queueKept_processUnit hqueue hw, .inr (hqueue.txq ▸ processUnit_phase hr hw)⟩
  obtain ⟨-, h⟩ | ⟨-, rfl⟩ := h
  · obtain rfl | ⟨-, hidle, -⟩ := frameEndCheck_left (.refl u) h
    · exact loop.2
    · exact .inr (.inl hidle)
  · exact loop.2

/-- The transitions of PHASE that ASM makes (R198). -/
theorem asm_phase {p : Params} {s t : State} (h : asmAt p s = .next t) (hchange : s.phase ≠ t.phase) :
    t.phase = .idle ∨ (s.phase = .idle ∧ t.phase = .addressPhase) ∨
    (s.phase = .addressPhase ∧ t.phase = .payloadPhase) ∨
    ((s.phase = .addressPhase ∨ s.phase = .payloadPhase) ∧ t.phase = .responding ∧ s.master = false ∧
      s.txq = true ∧ t.addressed = true) := by
  rcases asmAt_next.1 h with ⟨hp, rfl⟩ | ⟨-, -, h⟩ | ⟨-, -, h⟩ | ⟨hr, hm, h⟩
  · -- the idle case
    obtain ⟨-, h⟩ | ⟨-, -, h⟩ | ⟨-, -, h⟩ := idleCase_eq s
    · exact absurd (by rw [h]) hchange
    · exact .inr (.inl ⟨hp, by rw [h]; rfl⟩)
    · exact absurd (by rw [h]) hchange
  · -- the master case
    unfold masterCase at h
    split at h
    · exact .inl (endTransmit_phase h)
    · split at h
      · next hc => cases h; exact .inr (.inr (.inl ⟨hc.1, rfl⟩))
      · cases h; exact absurd rfl hchange
  · -- the responding case
    unfold respondingCase at h
    split at h
    · exact .inl (endTransmit_phase h)
    · cases h; exact absurd rfl hchange
  · -- the receiving case
    obtain hsame | hidle | hpayload | ⟨hresponding, hq, ha⟩ := receiveCase_phase h
    · exact absurd hsame.symm hchange
    · exact .inl hidle
    · have haddress : s.phase = .addressPhase := hr.resolve_right fun hp => hchange (hp.trans hpayload.symm)
      exact .inr (.inr (.inl ⟨haddress, hpayload⟩))
    · exact .inr (.inr (.inr ⟨hr, hresponding, hm, hq, ha⟩))

/-! ### Every instruction -/

/-- An accepted CLAIM begins a frame from IDLE (R236). -/
theorem claim_phase {p : Params} {s u : State} (hc : claimAccepted s = true) (hu : claimBus p s = .ok u) :
    s.phase = .idle ∧ u.phase = .addressPhase := by
  rw [claimBus_eq (txMax_pos_of_claimBus hu)] at hu
  cases hu
  simp only [claimAccepted, Bool.and_eq_true, beq_iff_eq] at hc
  exact ⟨hc.1.1.1, rfl⟩

/-- Settles O52, instruction by instruction: INIT, RESET, CLAIM and ASM alone change PHASE. -/
theorem phaseTransitions : Obligations.PhaseTransitions := by
  intro p i s t h hchange
  have hr := execAt_result h
  cases i with
  | nop | rdline _ | rxlen | rxrd _ | rdsr _ => obtain ⟨r, rfl⟩ := hr; exact absurd rfl hchange
  | ien | idis | iclr | snoop _ | rxack => obtain rfl := hr; exact absurd rfl hchange
  | setdir _ _ => obtain rfl := hr; exact absurd (by simp [setDirection]) hchange
  | ext _ _ => obtain rfl := hr; exact absurd (by simp [externalChange]) hchange
  | wrline _ _ => obtain ⟨u, hu, rfl⟩ := hr; exact absurd (writeLine_phase hu).symm hchange
  | init => obtain rfl := hr; exact .inl ⟨rfl, .inl rfl⟩
  | reset => obtain rfl := hr; exact .inl ⟨rfl, .inr (.inl rfl)⟩
  | claim =>
    obtain ⟨hc, u, hu, rfl⟩ | rfl := hr
    · obtain ⟨hidle, haddress⟩ := claim_phase hc hu
      exact .inr (.inl ⟨hidle, haddress, .inr rfl⟩)
    · exact absurd rfl hchange
  | txpush _ => obtain ⟨-, -, rfl⟩ | rfl := hr <;> exact absurd rfl hchange
  | txenq => obtain ⟨-, rfl⟩ | rfl := hr <;> exact absurd rfl hchange
  | txclr => obtain ⟨-, rfl⟩ | rfl := hr <;> exact absurd rfl hchange
  | sample => exact absurd (sample_phase hr).symm hchange
  | asm =>
    obtain hidle | ⟨hidle, haddress⟩ | ⟨haddress, hpayload⟩ | ⟨hfrom, hresponding, hm, hq, ha⟩ := asm_phase hr hchange
    · exact .inl ⟨hidle, .inr (.inr rfl)⟩
    · exact .inr (.inl ⟨hidle, haddress, .inl rfl⟩)
    · exact .inr (.inr (.inl ⟨haddress, hpayload, rfl⟩))
    · exact .inr (.inr (.inr ⟨hfrom, hresponding, rfl, hm, hq, ha⟩))

end Sys2Proof.Machine
end

section
/-! PROOFS. An observer stays silent (R202): what one ASM pass does with the frame of another node. -/

namespace Sys2Proof.Machine

/-- The frame in progress is another node's, its address unit examined or not yet (R185, R202). -/
def ForeignFrame (p : Params) (s : State) : Prop :=
  (s.phase = .payloadPhase ∧ s.addressed = false) ∨ (s.phase = .addressPhase ∧ s.fbuf.read 0 ≠ p.nodeAddr)

/-- What an observer makes of the frame in `s` (R202): nothing yet, its end, or a frame that is still another node's. -/
inductive Observed (s t : State) : Prop
  | waits (same : t = s)
  | ended (alone : LeftAlone s t) (phase : t.phase = .idle) (tdir : t.tdir = .receiving)
  | goesOn (alone : LeftAlone s t) (phase : t.phase = .payloadPhase) (foreign : t.addressed = false)
      (tdir : t.tdir = s.tdir)

/-- A frame is left, whatever FDISC is set to (R191, R192). -/
theorem Observed.left {s u : State} (hu : LeftAlone s u) : Observed s (toIdle u) := .ended { hu with } rfl rfl

/-- The unit just examined shows the frame to be another node's still (R185). -/
theorem examined_foreign {p : Params} {s : State} (h : ForeignFrame p s) : (examined p s).addressed = false := by
  unfold examined
  obtain ⟨hp, ha⟩ | ⟨hp, ha⟩ := h
  · simp [hp, ha]
  · simp [hp, ha]

/-- One unit of another node's frame (R185, R186): without REPLY no response begins. -/
theorem processUnit_observed {p : Params} {s u t : State} (hf : ForeignFrame p u) (hr : receivingPhase u = true)
    (hu : LeftAlone s u) (htdir : u.tdir = s.tdir) (h : processUnit p u = .ok t) : Observed s t := by
  have hforeign := examined_foreign hf
  have halone : LeftAlone s (examined p u) := by rw [examined_eq]; exact { hu with }
  obtain rfl | h := processUnit_cases h
  · exact .left hu
  obtain ⟨-, rfl⟩ | ⟨-, v, hv, rfl⟩ | ⟨-, rfl⟩ | ⟨hj, -⟩ := judgeAndAct_ok.1 h
  · exact .goesOn halone (examined_phase hr) hforeign (by rw [examined_eq]; exact htdir)
  · exact .left (leftAlone_deliver halone hv)
  · exact .left { halone with }
  · exact absurd (addressed_of_reply hj) (by simp [hforeign])

/-- Every unit of the pass (R184): a frame that goes on is foreign to the next one too. -/
theorem processUnits_observed {p : Params} {s t : State} {n : Nat} (hf : ForeignFrame p s)
    (h : processUnits p n s = .ok t) : Observed s t := by
  refine processUnits_keeps (P := Observed s) ?_ (.waits rfl) h
  rintro u v - hr hu hv
  cases hu with
  | waits same =>
    subst same
    exact processUnit_observed hf hr (.refl _) rfl hv
  | ended _ phase _ => simp [receivingPhase, phase] at hr
  | goesOn alone phase foreign tdir => exact processUnit_observed (.inl ⟨phase, foreign⟩) hr alone tdir hv

/-- One pass over another node's frame (R184, R202). -/
theorem receiveCase_observed {p : Params} {s t : State} (hf : ForeignFrame p s) (h : receiveCase p s = .ok t) :
    Observed s t := by
  obtain ⟨u, hu, h⟩ := receiveCase_ok.1 h
  have loop := processUnits_observed hf hu
  obtain ⟨hr, hend⟩ | ⟨-, rfl⟩ := h
  · cases loop with
    | waits same =>
      subst same
      obtain rfl | ⟨alone, phase, tdir⟩ := frameEndCheck_left (.refl u) hend
      · exact .waits rfl
      · exact .ended alone phase tdir
    | ended _ phase _ => simp [receivingPhase, phase] at hr
    | goesOn alone phase foreign tdir =>
      obtain rfl | ⟨alone', phase', tdir'⟩ := frameEndCheck_left alone hend
      · exact .goesOn alone phase foreign tdir
      · exact .ended alone' phase' tdir'
  · exact loop

/-- Settles O53, by what the pass makes of the frame. -/
theorem observerStaysSilent : Obligations.ObserverStaysSilent := by
  intro p s t hm hf h
  have hr : s.phase = .addressPhase ∨ s.phase = .payloadPhase := hf.symm.imp And.left And.left
  have hactive : s.phase ≠ .idle ∧ s.phase ≠ .responding := by obtain hp | hp := hr <;> simp [hp]
  rw [asm_receiving hr hm, finish_next] at h
  cases receiveCase_observed hf h with
  | waits same =>
    subst same
    refine ⟨rfl, rfl, (if_neg hactive.1).symm, rfl, rfl, rfl, hm, hactive.2, fun hp => ?_, fun _ => rfl⟩
    obtain ⟨-, ha⟩ | ⟨ha, -⟩ := hf
    · exact ha
    · simp [ha] at hp
  | ended alone phase tdir =>
    exact ⟨alone.dir, alone.out, by rw [tdir, if_pos phase], alone.elost, alone.noreply, alone.txq,
      alone.master.trans hm, by simp [phase], by simp [phase], by simp [phase]⟩
  | goesOn alone phase foreign tdir =>
    exact ⟨alone.dir, alone.out, by rw [tdir, if_neg (by simp [phase])], alone.elost, alone.noreply, alone.txq,
      alone.master.trans hm, by simp [phase], fun _ => foreign, by simp [phase]⟩

end Sys2Proof.Machine
end

section
/-! PROOFS. The host interface: what each host command answers, accepted or refused, at every instance of the block
(R230 to R241). -/

namespace Sys2Proof.Machine

/-! ### NOP and SNOOP -/

/-- NOP only answers (R230). -/
theorem execAt_nop (p : Params) (s : State) : execAt p .nop s = .next (s.respond nothing) := rfl

/-- SNOOP writes its bit and answers (R235). -/
theorem execAt_snoop (p : Params) (on : Bool) (s : State) :
    execAt p (.snoop on) s = .next { s with snoop := on, rsp := 0x00#8 } := rfl

/-- No status register shows the last response (R35 to R51). -/
@[simp] theorem statusRegister_respond (p : Params) (s : State) (r : Byte) (n : BitVec 4) :
    statusRegister p (s.respond r) n = statusRegister p s n := rfl

/-- Settles O38: NOP changes the response alone, which no status register shows. -/
theorem nopResult : Obligations.NopResult := fun s =>
  ⟨s.respond nothing, (exec_eq_execAt .nop s).trans (execAt_nop _ s), rfl, statusRegister_respond _ s nothing⟩

/-- Settles O39: SNOOP of every instance, at the parameters of Config. -/
theorem snoopResult : Obligations.SnoopResult := fun on s =>
  (exec_eq_execAt (.snoop on) s).trans (execAt_snoop _ on s)

/-! ### CLAIM -/

/-- CLAIM is accepted where the engine is IDLE, BUSY is released by this node and HIGH on the bus, and a frame is
enqueued (R236). -/
theorem claimAccepted_iff {s : State} :
    claimAccepted s = true ↔
      s.phase = .idle ∧ s.dir.busy = .input ∧ s.extLevel.busy = .high ∧ s.txq = true := by
  simp only [claimAccepted, Bool.and_eq_true, beq_iff_eq, and_assoc]
  refine and_congr_right fun _ => and_congr_right fun hd => ?_
  rw [readLine_input (l := .busy) hd, Lines.get_busy]

/-- CLAIM is refused where one of its four conditions fails (R236). -/
theorem claimAccepted_eq_false_iff {s : State} :
    claimAccepted s = false ↔
      s.phase ≠ .idle ∨ s.dir.busy = .output ∨ s.extLevel.busy = .low ∨ s.txq = false := by
  have hbusy : ¬s.dir.busy = .input ↔ s.dir.busy = .output := not_iff_comm.1 direction_ne_output
  have hext : ¬s.extLevel.busy = .high ↔ s.extLevel.busy = .low := by cases s.extLevel.busy <;> simp
  rw [← Bool.not_eq_true, claimAccepted_iff]
  simp only [not_and_or, hbusy, hext, Bool.not_eq_true, ne_eq]

/-- An accepted CLAIM, where the edge detector has seen the CLOCK wire: no edge is found on the way (R236, R222). -/
theorem execAt_claim_accepted {p : Params} {s : State} (hp : 0 < p.txMax) (hc : claimAccepted s = true)
    (hs : clockSeen s) :
    execAt p .claim s = .next { s with
      dir := { s.dir with data := .output, busy := .output }, out := { s.out with busy := .low },
      master := true, busyLast := .low, flen := 0#8, fproc := 0#8, fovf := false, addressed := false,
      bitcnt := 0#3, shift := 0#8, txidx := 0#8, txbyte := s.txbuf.read 0, txvalid := true, txdone := false,
      tdir := .transmitting, phase := .addressPhase, ien := true, ipend := false, rsp := 0x01#8 } := by
  have hbus := claimBus_eq hp s
  rw [edgeDetect_same hs] at hbus
  exact (claimAt_next hp).2 (by rw [if_pos hc]; exact ⟨_, hbus, rfl⟩)

/-- A refused CLAIM only answers (R236). -/
theorem execAt_claim_refused {p : Params} {s : State} (hc : claimAccepted s = false) :
    execAt p .claim s = .next (s.respond nothing) :=
  if_neg (Bool.eq_false_iff.1 hc)

/-- Settles O40, by the test of CLAIM. -/
theorem claimResult : Obligations.ClaimResult := by
  intro s
  rw [exec_eq_execAt]
  refine ⟨fun hidle hbusy hext hq hs => ?accepted, fun h => ?refused⟩
  case accepted =>
    exact execAt_claim_accepted config_params_valid.txMax_pos (claimAccepted_iff.2 ⟨hidle, hbusy, hext, hq⟩) hs
  case refused => exact execAt_claim_refused (claimAccepted_eq_false_iff.2 h)

/-! ### The response queue -/

/-- TXPUSH stages its unit at TXLEN while nothing is enqueued and there is room (R237). -/
theorem execAt_txpush_staged {p : Params} {imm : Byte} {s : State} (hq : s.txq = false)
    (hroom : s.txlen.toNat < p.txMax) :
    execAt p (.txpush imm) s = .next { s with
      txbuf := s.txbuf.write s.txlen.toNat imm, txlen := s.txlen + 1#8, rsp := 0x01#8 } := by
  simp only [execAt, txpushAt]
  rw [if_pos ⟨hq, hroom⟩, memWrite_ok.2 ⟨hroom, rfl⟩]
  rfl

/-- TXPUSH only answers where a frame is enqueued or TXBUF is full (R237). -/
theorem execAt_txpush_refused {p : Params} {imm : Byte} {s : State} (h : s.txq = true ∨ p.txMax ≤ s.txlen.toNat) :
    execAt p (.txpush imm) s = .next (s.respond nothing) := by
  refine if_neg ?_
  rintro ⟨hq, hroom⟩
  obtain hq' | hfull := h
  · simp [hq] at hq'
  · exact hfull.not_gt hroom

/-- Settles O41: the staged unit is what a write at TXLEN stores, and every other unit is as it was. -/
theorem txpushResult : Obligations.TxpushResult := by
  intro imm s
  rw [exec_eq_execAt]
  refine ⟨fun hq hroom => ?staged, fun h => ?refused⟩
  case staged =>
    exact ⟨_, execAt_txpush_staged hq hroom, rfl, fun hw => read_write_same _ imm hw,
      fun a ha => read_write_other imm ha⟩
  case refused => exact execAt_txpush_refused h

/-- TXENQ enqueues the units staged, where there is one and nothing is enqueued (R238). -/
theorem execAt_txenq_enqueued {p : Params} {s : State} (hq : s.txq = false) (hlen : s.txlen ≠ 0#8) :
    execAt p .txenq s = .next { s with txq := true, rsp := 0x01#8 } :=
  if_pos ⟨hq, by bv_omega⟩

/-- TXENQ only answers where a frame is enqueued or no unit is staged (R238). -/
theorem execAt_txenq_refused {p : Params} {s : State} (h : s.txq = true ∨ s.txlen = 0#8) :
    execAt p .txenq s = .next (s.respond nothing) :=
  if_neg (by obtain hq | hlen := h <;> simp [*])

/-- TXCLR empties the queue while this node receives (R239). -/
theorem execAt_txclr_receiving {p : Params} {s : State} (h : s.tdir = .receiving) :
    execAt p .txclr s = .next { s with
      txq := false, txlen := 0#8, txidx := 0#8, txbyte := 0#8, txvalid := false, txdone := false,
      rsp := 0x01#8 } := by
  simp only [execAt, txclrAt, h]
  rfl

/-- TXCLR only answers while a transmission is in progress (R239). -/
theorem execAt_txclr_transmitting {p : Params} {s : State} (h : s.tdir = .transmitting) :
    execAt p .txclr s = .next (s.respond nothing) := by
  simp only [execAt, txclrAt, h]

/-- Settles O42, case by case of the two commands. -/
theorem txenqTxclrResult : Obligations.TxenqTxclrResult := by
  intro s
  rw [exec_eq_execAt, exec_eq_execAt]
  exact ⟨execAt_txenq_enqueued, execAt_txenq_refused, execAt_txclr_receiving, execAt_txclr_transmitting⟩

/-! ### The delivered frame -/

/-- RXLEN answers the length of the delivered frame (R231). -/
theorem execAt_rxlen (p : Params) (s : State) :
    execAt p .rxlen s = .next { s with rsp := if s.frdy then s.dlen else 0x00#8 } := rfl

/-- RXRD answers a unit of the delivered frame, whose length is within the capacity of DBUF (R240, R58 item 1). -/
theorem execAt_rxrd_inside {p : Params} {imm : Byte} {s : State} (hf : s.frdy = true)
    (hi : imm.toNat < s.dlen.toNat) (hlen : s.dlen.toNat ≤ p.frameMax) :
    execAt p (.rxrd imm) s = .next { s with rsp := s.dbuf.read imm.toNat } := by
  have hread : memRead p .dbuf imm.toNat s = .ok (s.dbuf.read imm.toNat) := memRead_ok.2 ⟨hi.trans_le hlen, rfl⟩
  simp only [execAt, rxrdAt, hread]
  exact if_pos ⟨hf, hi⟩

/-- RXRD answers 0x00 where there is no delivered frame, and outside it (R240). -/
theorem execAt_rxrd_outside {p : Params} {imm : Byte} {s : State}
    (h : s.frdy = false ∨ s.dlen.toNat ≤ imm.toNat) : execAt p (.rxrd imm) s = .next (s.respond nothing) := by
  refine if_neg ?_
  rintro ⟨hf, hi⟩
  obtain hf' | hout := h
  · simp [hf] at hf'
  · exact hout.not_gt hi

/-- RXACK gives DBUF back, and answers whether there was a frame in it (R241). -/
theorem execAt_rxack (p : Params) (s : State) :
    execAt p .rxack s = .next { s with
      frdy := false, dlen := 0#8, dobs := false, rsp := if s.frdy then 0x01#8 else 0x00#8 } := rfl

/-- Settles O43, command by command, with FRAME_MAX = 32. -/
theorem deliveredFrameCommands : Obligations.DeliveredFrameCommands := by
  intro imm s
  rw [exec_eq_execAt, exec_eq_execAt, exec_eq_execAt]
  exact ⟨execAt_rxlen _ s, fun hf hi hlen => execAt_rxrd_inside hf hi hlen, execAt_rxrd_outside, execAt_rxack _ s⟩

end Sys2Proof.Machine
end

section
/-! PROOFS. Which unit of a buffer a step can store (R252): SAMPLE one unit of FBUF, TXPUSH one unit of TXBUF, ASM the
units of DBUF that a delivery fills, and no other step but INIT and RESET any. -/

namespace Sys2Proof.Machine

/-! ### The steps that store nothing -/

/-- The contents of the three buffers are the same in `t` as in `s`. -/
structure BuffersSame (s t : State) : Prop where
  fbuf : t.fbuf = s.fbuf
  dbuf : t.dbuf = s.dbuf
  txbuf : t.txbuf = s.txbuf

@[refl] theorem BuffersSame.refl (s : State) : BuffersSame s s := ⟨rfl, rfl, rfl⟩

theorem BuffersSame.buf {s t : State} (h : BuffersSame s t) (b : Buffer) : t.buf b = s.buf b := by
  cases b with
  | fbuf => exact h.fbuf
  | dbuf => exact h.dbuf
  | txbuf => exact h.txbuf

/-- A step outside the list of R252 leaves the buffers as they are. -/
theorem buffersSame_execAt {p : Params} {i : Instr} {s t : State} (hinit : i ≠ .init) (hreset : i ≠ .reset)
    (hsample : i ≠ .sample) (hasm : i ≠ .asm) (hpush : ∀ imm, i ≠ .txpush imm) (h : execAt p i s = .next t) :
    BuffersSame s t := by
  have same := BuffersSame.refl s
  have hr := execAt_result h
  cases i with
  | nop | rdline _ | rxlen | rxrd _ | rdsr _ => obtain ⟨r, rfl⟩ := hr; exact { same with }
  | ien | idis | iclr | snoop _ | rxack => obtain rfl := hr; exact { same with }
  | setdir _ _ => obtain rfl := hr; rw [setDirection, edgeDetect_eq]; exact { same with }
  | ext _ _ => obtain rfl := hr; rw [externalChange, edgeDetect_eq]; exact { same with }
  | wrline _ _ =>
    obtain ⟨u, hu, rfl⟩ := hr
    obtain ⟨-, rfl⟩ := writeLine_ok.1 hu
    rw [edgeDetect_eq]
    exact { same with }
  | claim =>
    obtain ⟨-, u, hu, rfl⟩ | rfl := hr
    · rw [claimBus_eq (txMax_pos_of_claimBus hu), edgeDetect_eq] at hu
      cases hu
      exact { same with }
    · exact { same with }
  | txenq => obtain ⟨-, rfl⟩ | rfl := hr <;> exact { same with }
  | txclr => obtain ⟨-, rfl⟩ | rfl := hr <;> exact { same with }
  | init => exact absurd rfl hinit
  | reset => exact absurd rfl hreset
  | sample => exact absurd rfl hsample
  | asm => exact absurd rfl hasm
  | txpush imm => exact absurd rfl (hpush imm)

/-! ### SAMPLE and TXPUSH -/

/-- SAMPLE stores at FBUF[FLEN] if it stores at all (R164); what it transmits it only reads. -/
theorem sample_stores {p : Params} {s t : State} {b : Buffer} {a : Nat} (h : sampleAt p s = .next t)
    (ha : ¬(b = .fbuf ∧ a = s.flen.toNat)) : (t.buf b).read a = (s.buf b).read a := by
  cases b with
  | dbuf => exact congrArg (·.dbuf.read a) (sample_frame h)
  | txbuf => exact congrArg (·.txbuf.read a) (sample_frame h)
  | fbuf =>
    have hne : a ≠ s.flen.toNat := fun he => ha ⟨rfl, he⟩
    obtain ⟨-, -, ⟨-, h⟩ | ⟨-, h⟩⟩ := sampleAt_next.1 h
    · obtain ⟨-, rfl⟩ | ⟨-, -, rfl⟩ | ⟨-, -, rfl⟩ := receiveBit_ok.1 h
      · rfl
      · exact read_write_other _ hne
      · rfl
    · obtain ⟨u, hu, h⟩ := transmitBit_ok.1 h
      obtain ⟨-, rfl⟩ := writeLine_ok.1 hu
      rw [edgeDetect_eq] at h
      obtain ⟨-, -, rfl⟩ | ⟨-, -, h⟩ | ⟨-, rfl⟩ := h
      · rfl
      · obtain ⟨-, -, rfl⟩ | ⟨-, rfl⟩ := transmitComplete_ok.1 h <;> rfl
      · rfl

/-- TXPUSH stores at TXBUF[TXLEN] if it stores at all (R237). -/
theorem txpush_stores {p : Params} {imm : Byte} {s t : State} {b : Buffer} {a : Nat}
    (h : execAt p (.txpush imm) s = .next t) (ha : ¬(b = .txbuf ∧ a = s.txlen.toNat)) :
    (t.buf b).read a = (s.buf b).read a := by
  obtain ⟨-, -, rfl⟩ | rfl := execAt_result h
  · cases b with
    | fbuf | dbuf => rfl
    | txbuf => exact read_write_other imm fun he => ha ⟨rfl, he⟩
  · rfl

/-! ### ASM -/

/-- `t` holds a frame that was not there in `s`, stored in DBUF below its length (R190). -/
structure FrameStored (s t : State) : Prop where
  before : s.frdy = false
  after : t.frdy = true
  above : ∀ a, t.dlen.toNat ≤ a → t.dbuf.read a = s.dbuf.read a

/-- All that ASM stores between `s` and `t` is one delivered frame, or nothing. -/
structure StoresAFrame (s t : State) : Prop where
  fbuf : t.fbuf = s.fbuf
  txbuf : t.txbuf = s.txbuf
  dbuf : (t.dbuf = s.dbuf ∧ t.frdy = s.frdy) ∨ FrameStored s t

/-- A procedure of ASM that is no delivery stores nothing (R252). -/
theorem StoresAFrame.kept {s u t : State} (hu : StoresAFrame s u) (h : BuffersSame u t) (hf : t.frdy = u.frdy)
    (hlen : t.dlen = u.dlen) : StoresAFrame s t where
  fbuf := h.fbuf.trans hu.fbuf
  txbuf := h.txbuf.trans hu.txbuf
  dbuf := hu.dbuf.imp (fun ⟨hdbuf, hfrdy⟩ => ⟨h.dbuf.trans hdbuf, hf.trans hfrdy⟩)
    fun d => ⟨d.before, hf.trans d.after, by rw [h.dbuf, hlen]; exact d.above⟩

/-- A delivery stores where FRDY was 0 and leaves it 1, so one pass of ASM stores no second frame (R190). -/
theorem storesAFrame_deliver {p : Params} {s u t : State} (hu : StoresAFrame s u) (h : deliver p u = .ok t) :
    StoresAFrame s t := by
  obtain ⟨-, rfl⟩ | ⟨hf, -, m, rfl, hold, -⟩ := deliver_ok h
  · exact hu.kept ⟨rfl, rfl, rfl⟩ rfl rfl
  · obtain ⟨hdbuf, hfrdy⟩ | hstored := hu.dbuf
    · exact { hu with dbuf := .inr ⟨hfrdy ▸ hf, rfl, fun a ha => (hold a ha).trans (by rw [hdbuf])⟩ }
    · simp [hstored.after] at hf

theorem asmKeeps_storesAFrame (p : Params) (s : State) : AsmKeeps p (StoresAFrame s) where
  busySeen u _ h := h.kept ⟨rfl, rfl, rfl⟩ rfl rfl
  frameStarts u _ h := h.kept ⟨rfl, rfl, rfl⟩ rfl rfl
  payloadOpens u _ h := h.kept ⟨rfl, rfl, rfl⟩ rfl rfl
  transmitEnds u t h ht := by
    obtain ⟨-, -, rfl⟩ := endTransmit_ok.1 ht
    rw [edgeDetect_eq]
    exact h.kept ⟨rfl, rfl, rfl⟩ rfl rfl
  unitExamined u _ _ h := by rw [examined_eq]; exact h.kept ⟨rfl, rfl, rfl⟩ rfl rfl
  frameDelivered _ _ h ht := storesAFrame_deliver h ht
  diagSet _ _ _ h := h.kept ⟨rfl, rfl, rfl⟩ rfl rfl
  frameEnds _ _ _ h := h.kept ⟨rfl, rfl, rfl⟩ rfl rfl
  responseBegins u t _ _ _ h ht := by
    rw [beginResponse_eq (txMax_pos_of_beginResponse ht), edgeDetect_eq] at ht
    cases ht
    exact h.kept ⟨rfl, rfl, rfl⟩ rfl rfl

/-- ASM stores in DBUF below DLEN, where it delivers (R190). -/
theorem asm_stores {p : Params} {s t : State} {b : Buffer} {a : Nat} (h : asmAt p s = .next t)
    (ha : ¬(s.frdy = false ∧ t.frdy = true ∧ b = .dbuf ∧ a < t.dlen.toNat)) :
    (t.buf b).read a = (s.buf b).read a := by
  obtain ⟨hfbuf, htxbuf, hdbuf⟩ := (asmKeeps_storesAFrame p s).step ⟨rfl, rfl, .inl ⟨rfl, rfl⟩⟩ h
  cases b with
  | fbuf => exact congrArg (·.read a) hfbuf
  | txbuf => exact congrArg (·.read a) htxbuf
  | dbuf =>
    obtain ⟨hsame, -⟩ | ⟨hbefore, hafter, habove⟩ := hdbuf
    · exact congrArg (·.read a) hsame
    · exact habove a (Nat.le_of_not_lt fun hlt => ha ⟨hbefore, hafter, rfl, hlt⟩)

/-- Settles O54, by the three steps that store; INIT and RESET are excepted, and the others keep every buffer. -/
theorem storesTouchOnlyTheirUnits : Obligations.StoresTouchOnlyTheirUnits := by
  intro p i s t h hinit hreset b a hsample hpush hasm
  cases i with
  | sample => exact sample_stores h fun ha => hsample ⟨rfl, ha⟩
  | txpush imm => exact txpush_stores h fun ha => hpush ⟨⟨imm, rfl⟩, ha⟩
  | asm => exact asm_stores h fun ha => hasm ⟨rfl, ha⟩
  | _ => exact congrArg (·.read a) ((buffersSame_execAt hinit hreset nofun nofun nofun h).buf b)

end Sys2Proof.Machine
end

section
/-! PROOFS. Several nodes on an ideal wire (R273, R304): what a node sees of the others depends only on which lines
they pull, and after every step of the bus each node sees the lines as they are. -/

namespace Sys2Proof.Machine

/-! ### A list of nodes with the node at one index replaced -/

/-- The bus with another node at the index `k`, before the others have seen it. -/
def Bus.setNode (b : Bus) (k : Nat) (n : Node) : Bus := { b with nodes := b.nodes.set k n }

theorem Bus.nodes_setNode_same {b : Bus} {k : Nat} {m : Node} (n : Node) (hm : b.nodes[k]? = some m) :
    (b.setNode k n).nodes[k]? = some n :=
  List.getElem?_set_self (List.getElem?_eq_some_iff.1 hm).1

/-- What a node's own step makes of the bus (R273); EXT is no step of a node. -/
theorem Bus.step_node_next {b : Bus} {k : Nat} {n : Node} {i : Instr} {t : State} (hi : ∀ l v, i ≠ .ext l v)
    (hn : b.nodes[k]? = some n) (h : execAt n.params i n.state = .next t) :
    b.step (.node k i) = some (b.setNode k { n with state := t }).settle := by
  cases i with
  | ext l v => exact absurd rfl (hi l v)
  | _ => simp only [Bus.step, hn, h, Bus.setNode]

/-- Everything that a node's own step can do to the bus (R273). -/
theorem Bus.step_node_cases {b b' : Bus} {k : Nat} {i : Instr} (h : b.step (.node k i) = some b') :
    ∃ n t, b.nodes[k]? = some n ∧ execAt n.params i n.state = .next t ∧
      b' = (b.setNode k { n with state := t }).settle := by
  unfold Bus.step at h
  split at h
  · cases h
  · next hstep =>
    cases hstep
    split at h
    · cases h
    · next n hn =>
      split at h
      · next t ht => exact ⟨n, t, hn, ht, (Option.some.inj h).symm⟩
      · cases h
      · cases h
  · next hstep => cases hstep

/-! ### What a node sees of the others -/

/-- The level that the others put on a line, from their pulls alone (R273). -/
theorem Bus.extLevelOf_eq (b : Bus) (k : Nat) (l : Line) :
    b.extLevelOf k l =
      if b.rest.get l = .low ∨ ((b.nodes.map (pull ·.state l)).eraseIdx k).any id = true then .low else .high := by
  simp [Bus.extLevelOf, somePulls, List.eraseIdx_map, List.any_map]

/-- Node by node, the two buses pull the same lines, and so does the rest of the environment. -/
structure PullsAlike (b c : Bus) : Prop where
  rest : c.rest = b.rest
  pulls : ∀ l, c.nodes.map (pull ·.state l) = b.nodes.map (pull ·.state l)

theorem PullsAlike.extLevelOf {b c : Bus} (h : PullsAlike b c) (k : Nat) (l : Line) :
    c.extLevelOf k l = b.extLevelOf k l := by
  rw [Bus.extLevelOf_eq, Bus.extLevelOf_eq, h.rest, h.pulls]

/-- A line that another node pulls is LOW for this one (R273). -/
theorem Bus.extLevelOf_pulled {b : Bus} {j k : Nat} {n : Node} {l : Line} (hjk : j ≠ k)
    (hn : b.nodes[j]? = some n) (hp : pull n.state l = true) : b.extLevelOf k l = .low :=
  if_pos (.inr (List.any_eq_true.2 ⟨n, List.mem_eraseIdx_iff_getElem?.2 ⟨j, hjk, hn⟩, hp⟩))

/-- What a node pulls does not depend on what it sees (R120). -/
theorem pull_settleNode (b : Bus) (k : Nat) (n : Node) (l : Line) :
    pull (b.settleNode k n).state l = pull n.state l := by
  simp [Bus.settleNode, pull]

theorem rsp_settleNode (b : Bus) (k : Nat) (n : Node) : (b.settleNode k n).state.rsp = n.state.rsp := by
  simp [Bus.settleNode]

theorem pullsAlike_settle (b : Bus) : PullsAlike b b.settle where
  rest := rfl
  pulls l := List.ext_getElem (by simp [Bus.settle]) fun i _ _ => by simp [Bus.settle, pull_settleNode]

theorem pullsAlike_setNode {b : Bus} {k : Nat} {m n : Node} (hm : b.nodes[k]? = some m)
    (hp : ∀ l, pull n.state l = pull m.state l) : PullsAlike b (b.setNode k n) where
  rest := rfl
  pulls l := by
    have hself : (b.nodes.map (pull ·.state l))[k]? = some (pull n.state l) := by rw [List.getElem?_map, hm, hp l]; rfl
    obtain ⟨hk, hself⟩ := List.getElem?_eq_some_iff.1 hself
    rw [Bus.setNode, List.map_set, ← hself, List.set_getElem_self]

theorem Bus.nodes_settle {b : Bus} {k : Nat} {n : Node} :
    b.settle.nodes[k]? = some n ↔ ∃ m, b.nodes[k]? = some m ∧ n = b.settleNode k m := by
  simp [Bus.settle, List.getElem?_mapIdx, eq_comm]

/-! ### A bus on which every node has seen the lines -/

/-- Node `k` sees what the others put on the lines, and its edge detector has seen the CLOCK wire. -/
structure Bus.Seen (b : Bus) (k : Nat) (s : State) : Prop where
  lines : ∀ l, s.extLevel.get l = b.extLevelOf k l
  clock : clockSeen s

theorem Bus.seen_settleNode (b : Bus) (k : Nat) (n : Node) : b.Seen k (b.settleNode k n).state where
  lines l := by cases l <;> simp [Bus.settleNode]
  clock := clockSeen_edgeDetect _ _

/-- A node that has seen the lines has nothing more to see. -/
theorem Bus.Seen.settleNode_eq {b : Bus} {k : Nat} {n : Node} (h : b.Seen k n.state) : b.settleNode k n = n := by
  simp only [Bus.settleNode, externalChange_same (h.lines _) h.clock]

theorem Bus.Seen.congr {b c : Bus} {k : Nat} {s : State} (h : b.Seen k s) (hp : PullsAlike b c) : c.Seen k s :=
  ⟨fun l => (h.lines l).trans (hp.extLevelOf k l).symm, h.clock⟩

/-- Every node of the bus has seen the lines. -/
def Bus.Settled (b : Bus) : Prop :=
  ∀ k n, b.nodes[k]? = some n → b.Seen k n.state

theorem Bus.settled_settle (b : Bus) : b.settle.Settled := by
  intro k n hn
  obtain ⟨m, -, rfl⟩ := Bus.nodes_settle.1 hn
  exact (b.seen_settleNode k m).congr (pullsAlike_settle b)

/-- In a settled bus a step that only answers changes nothing of its node but the response. -/
theorem Bus.Settled.step_respond {b : Bus} {k : Nat} {m : Node} {i : Instr} {r : Byte} (hb : b.Settled)
    (hi : ∀ l v, i ≠ .ext l v) (hm : b.nodes[k]? = some m)
    (h : execAt m.params i m.state = .next (m.state.respond r)) :
    ∃ b', b.step (.node k i) = some b' ∧ b'.nodes[k]? = some { m with state := m.state.respond r } := by
  have hseen : b.Seen k (m.state.respond r) := ⟨(hb k m hm).lines, clockSeen_respond (hb k m hm).clock⟩
  refine ⟨_, Bus.step_node_next hi hm h, Bus.nodes_settle.2 ⟨_, Bus.nodes_setNode_same _ hm, ?_⟩⟩
  have halike : PullsAlike b (b.setNode k { m with state := m.state.respond r }) :=
    pullsAlike_setNode hm fun _ => rfl
  exact (Bus.Seen.settleNode_eq (hseen.congr halike)).symm

/-! ### Two masters -/

/-- A CLAIM that answers 0x01 has taken BUSY, and pulls it (R236, R222). -/
theorem pull_busy_of_claim {p : Params} {s t : State} (h : claimAt p s = .next t) (hr : t.rsp = accepted) :
    pull t .busy = true := by
  obtain ⟨-, u, hu, rfl⟩ | ⟨-, rfl⟩ := claimAt_cases h
  · rw [claimBus_eq (txMax_pos_of_claimBus hu)] at hu
    cases hu
    rfl
  · cases hr

/-- Settles O60: the first node pulls BUSY, which the second one therefore reads LOW. -/
theorem secondClaimIsRefused : Obligations.SecondClaimIsRefused := by
  intro b b' j k n m hjk hclaim hn haccepted hm
  obtain ⟨a, t, ha, ht, rfl⟩ := Bus.step_node_cases hclaim
  have hsettled := (b.setNode j { a with state := t }).settled_settle
  have hpull : pull n.state .busy = true := by
    obtain ⟨c, hc, rfl⟩ := Bus.nodes_settle.1 hn
    obtain rfl := Option.some.inj ((Bus.nodes_setNode_same _ ha).symm.trans hc)
    rw [rsp_settleNode] at haccepted
    rw [pull_settleNode]
    exact pull_busy_of_claim ht haccepted
  have hbusy : m.state.extLevel.busy = .low :=
    ((hsettled k m hm).lines .busy).trans (Bus.extLevelOf_pulled hjk hn hpull)
  have hrefused : claimAccepted m.state = false := claimAccepted_eq_false_iff.2 (.inr (.inr (.inl hbusy)))
  exact hsettled.step_respond (by simp) hm (execAt_claim_refused hrefused)

end Sys2Proof.Machine
end

section
/-! PROOFS. The status dump after reset (R291). -/

namespace Sys2Proof.Machine

/-- Reset releases CLOCK, so that its wire shows the environment's level (R290). -/
theorem wire_resetBlock_clock (s : State) : wire (resetBlock s) .clock = s.extLevel.clock :=
  resetBlock_clkPrev s

/-- Settles O17: the registers of flags (O44) and of fields (O45) at their values after reset, CLK_PREV at the level
of the CLOCK wire, and in SR12 to SR15 the parameters of Config. -/
theorem resetStatusDump : Obligations.ResetStatusDump := by
  intro s t h
  obtain rfl : resetBlock s = t := Host.Outcome.next.inj h
  obtain ⟨-, -, -, -, -, hsr0, hsr1, hsr2, hsr3, hsr11⟩ := flagStatusRegisters.2 Config.params s
  obtain ⟨-, hfields, -⟩ := fieldStatusRegisters Config.params s config_params_valid
  obtain ⟨⟨-, -, -, -, -, -, -, hsr12⟩, -, -, -, -, hsr13, hsr14, hsr15⟩ :=
    fieldStatusRegisters Config.params (resetBlock s) config_params_valid
  have haddr : Config.params.nodeAddr = Config.nodeAddr := rfl
  rw [wire_resetBlock_clock] at hsr1
  simp [List.range_succ, hsr0, hsr1, hsr2, hsr3, hfields, hsr11, hsr12, haddr, hsr13, hsr14, hsr15]

end Sys2Proof.Machine
end
